-- ==== Sys2Proof/Word.lean ====
section
/-! DEFINITION. The word types of the ET9 model and the sparse table in which its large stores are held. -/

namespace Sys2Proof

/-- A register, a configuration word, a Bridge lane: 16 bits (R34, R84, R144). -/
abbrev Word := BitVec 16

/-- One stored byte (R5). -/
abbrev Byte := BitVec 8

/-- A sparse store: keys strictly rising, and no entry equal to what an unlisted key reads as.
`Machine/Table.lean` holds its reads and writes. -/
abbrev Tbl (β : Type) := List (Nat × β)

end Sys2Proof
end

