-- ==== Sys2Proof/Syntax.lean ====
section
/-! DEFINITION. The commands of the ET9: one constructor of `Instr` per row of the table of operations and events.
A command carries what comes from outside the block (who writes, which register, the value, a measurement, data a
partner sends); everything else a step needs is in the state. -/

namespace Sys2Proof

/-- A register view (R45): PF0, a VF, a hart, the side port, JTAG; Chaty is a requester of the bus (R37). -/
inductive View where
  | pf0
  | vf (n : Nat)
  | hart (n : Nat)
  | side
  | jtag
  | chaty
  deriving DecidableEq, Repr

/-- What asserts power-on reset (R358, R367). -/
inductive PorCause where
  | vauxLow
  | pwrOkLow
  | supplyLow (monitor : Nat)
  | failedWake
  deriving DecidableEq, Repr

/-- Where a command of a commit group, of a page flip or of a migration comes from: a register write of a view with
its value, or the next fetched descriptor of a ring pair (R169, R209, R235, R247). -/
inductive Req where
  | reg (v : View) (val : Word)
  | desc (ring : Nat)
  deriving DecidableEq, Repr

/-- Where a submission comes from (R217, R268, R288). -/
inductive SubSrc where
  | ring (g : Nat) (tag : Word)
  | fsp (k : Nat) (entry : Nat)
  | seg (port : Nat)
  | link (k : Nat) (hop : Nat)
  deriving DecidableEq, Repr

/-- The fields of a submission, Table 10-3, with the data that a segment port or a link brings along. -/
structure Submission where
  src : SubSrc
  part : Nat
  qid : Nat
  legs : Word
  len : Nat
  limit : Nat
  addr : Nat
  data : List Byte
  deriving DecidableEq, Repr

/-- A port B or DRAM access: a read of `n` bytes, a write of bytes, an atomic memory operation. -/
inductive Acc where
  | read (n : Nat)
  | write (bytes : List Byte)
  | amo (op : Nat) (val : BitVec 32)
  deriving DecidableEq, Repr

/-- What happens in a STREAM transaction, in order: a word has come in whole, or the register bus serves the oldest word of
the stream buffer (R50). -/
inductive StreamStep where
  | word (w : Word)
  | serve
  deriving DecidableEq, Repr

/-- The AMO functions of RV32A, as funct5 numbers them. -/
inductive AmoOp where
  | swap | add | xor | and | or | min | max | minu | maxu
  deriving DecidableEq, Repr

/-- What the medium did with the ET9's own transmission (R275, R278). -/
inductive TxResult where
  | good
  | coll
  | txerr
  /-- cut off by a restart of the PHY (R265) -/
  | cut
  deriving DecidableEq, Repr

/-- A transmission that a segment port observes (Table 12-3). -/
inductive MediumEvent where
  /-- a frame begins, and its source address is known -/
  | begins (mac : BitVec 48)
  /-- a frame with a valid FCS: its bytes from the destination address to the byte before the FCS -/
  | frame (bytes : List Byte)
  | collision
  | symErr
  | falseCar
  | jabber
  | badFcs
  | lateCol
  deriving DecidableEq, Repr

/-- A write of PCIe configuration space, or of the MSI-X table in BAR2 (R238, R240, R241, R253). -/
inductive CfgWrite where
  | power (d3hot : Bool)
  | busMaster (en : Bool)
  | numVFs (n : Nat)
  | msixEnable (en : Bool)
  | msixFunctionMask (masked : Bool)
  | msixMask (vec : Nat) (masked : Bool)
  /-- message address and data of a table entry -/
  | msixEntry (vec : Nat) (addr : BitVec 64) (data : BitVec 32)
  | bar0 (addr : BitVec 64)
  | bar2 (addr : BitVec 64)
  /-- Max_Payload_Size and Max_Read_Request_Size in bytes -/
  | maxPayload (n : Nat)
  | maxReadRequest (n : Nat)
  | completionTimeout (code : BitVec 4)
  | ecrc (gen check : Bool)
  /-- AER Uncorrectable Error Status: a 1 clears its bit -/
  | aerClear (mask : BitVec 32)
  deriving DecidableEq, Repr

/-- Why the host side went away (R261). -/
inductive HostLoss where
  | linkDown
  | hotReset
  | perst
  deriving DecidableEq, Repr

/-- How a DMA memory read fails (R255): poisoned, Unsupported Request, Completer Abort, Completion Timeout. -/
inductive ReadFail where
  | poisoned | unsupported | aborted | timedOut
  deriving DecidableEq, Repr

/-- A completion of a DMA memory read (R255): data, or a failure. -/
inductive HostRead where
  | data (bytes : List Byte)
  | failed (why : ReadFail)
  deriving DecidableEq, Repr

/-- What one DRAM access found in the devices (R307, R309): a clean read, errors in one device, anything else. -/
inductive DramSense where
  | clean
  | oneDevice (dev symbols : Nat) (sub rank : Nat)
  | worse (sub rank : Nat)
  deriving DecidableEq, Repr

/-- The commands, one constructor per row of the table of operations and events, in the table's order. An operand
that the command may leave unsaid has a default: no upset or error found, no boundary-scan cell known, the reference
there but faulty, a value of 0, the doorbell's own offset and size (Table 11-3), a REGMASK not yet known. -/
inductive Instr where
  | powerOnReset (cause : PorCause) (vddqHeld : Bool)
  | supplyLoss
  | rstN
  | resetRelease (vccio : BitVec 32) (senseBad : List Nat)
  | fallbackLoad
  | refFault (absent : Bool := false)
  | refRelock
  | registerWrite (v : View) (off : Nat) (be : BitVec 4) (val : BitVec 32)
  | hiWrite (v : View) (off : Nat) (val : Word)
  | framedWrite (v : View) (off : Nat) (val : Word)
  | cancel (v : View)
  | registerAbort (v : View) (off : Nat) (write : Bool) (val : Word := 0)
  | prtCtlLock (v : View)
  | prtRgnWrite (v : View) (k : Nat) (val : Word)
  | brgGateWrite (v : View) (k : Nat) (val : Word)
  | mailboxSelect (v : View) (lo : Word)
  | mailboxSnapshot (v : View)
  | mailboxAbort (v : View)
  | mbxD7Read (v : View)
  | sideWrite (off : Nat) (val : Word)
  | sideRead (off : Nat)
  | sideStream (off : Nat) (steps : List StreamStep)
  | sideStatus
  | sideUnknownOp (op : Byte)
  | sideCsRise
  | tapReset
  | extest (cells : List (Nat × Bool × Bool) := [])
  | idcode
  | samplePreload (cells : List (Nat × Bool × Bool) := [])
  | bypass (code : Byte)
  | regacc (dr : BitVec 48)
  | regaccCapture
  | access (bank : Nat) (pins : Option (BitVec 48))
  | portARead (bank : Nat) (wide : Bool) (addr : Nat)
  | portAWrite (bank : Nat) (wide : Bool) (addr : Nat) (data : Word)
  | accAdd (region tile : Nat) (acc : Nat) (pins : Option (BitVec 48))
  | accLoad (region tile : Nat) (acc : Nat) (pins : Option (BitVec 48))
  | accClear (region tile : Nat) (acc : Nat) (pins : Option (BitVec 48))
  | ldk (region tile : Nat) (k : Nat) (pins : Option (BitVec 48))
  | direct (region tile : Nat) (pins : Option (BitVec 48))
  | portBRequest (master part : Nat) (addr : Nat) (acc : Acc)
  | portBService (bank : Nat)
  | bankHandover (v : View) (bank : Nat) (val : Word)
  | bankFillDone (bank : Nat)
  | nop
  | fadr
  | regmask
  | frame
  | endPkt
  | loadHeader
  | loadChecksDone
  | startSide (v : View)
  | cfgFdatWrite (v : View) (val : Word)
  | abort (v : View)
  | loadTimeout
  | loadStart
  | swap (r : Req)
  | swapCancel (r : Req)
  | clear (r : Req)
  | swapEdge (part cg : Nat)
  | drainDeadline (qid : Nat)
  | configScrubRead (upset : List Nat := []) (shadowUpset : List Nat := [])
  | slotEdge
  | oosClear
  | frameBoundary
  | systimeLoad (v : View) (lo : Word)
  | timCtlWrite (v : View) (val : Word)
  | timFlenWrite (v : View) (val : Word)
  | timHlenWrite (v : View) (val : Word)
  | timArangeWrite (v : View) (p : Nat) (val : Word)
  | almanacEntryWrite (v : View) (lo : Word)
  | afile (ring : Nat)
  | afileDone (part : Nat)
  | copyPage (r : Req)
  | pageCopyDone (part : Nat)
  | flip (r : Req)
  | flipCheckDone (part : Nat)
  | flipCancel (r : Req)
  | dramRefresh (mc : Nat)
  | queueConfig (v : View) (lo : Word)
  | submission (sub : Submission)
  | admission
  | spillReturn (part : Nat) (sense : List DramSense := [])
  | cellDelivery (egress : Nat)
  | final (tid : Nat)
  | late (tid : Nat) (leg : Nat)
  | dbcnt (fsp n : Nat)
  | fspEntryRead (fsp : Nat)
  | fspCompletionWord (fsp : Nat)
  | fspRingEnable (v : View) (k : Nat) (val : Word)
  | fspOwnerWrite (v : View) (k : Nat) (val : Word)
  | migrate (r : Req)
  | sqDoorbell (page : Nat) (val : BitVec 32) (off : Nat := 0) (size : Nat := 4)
  | cqDoorbell (page : Nat) (val : BitVec 32) (off : Nat := 0) (size : Nat := 4)
  | ringConfig (v : View) (val : Word)
  | descriptorFetch (ring : Nat) (res : Option (List (BitVec 256)))
  | xfer (ring : Nat)
  | rxbuf (ring : Nat)
  | load (ring : Nat) (mask : List Nat := [])
  | jdrain (ring : Nat)
  | copy (ring : Nat)
  | copyStart (part : Nat)
  | unit (part : Nat)
  | descInvalid (ring : Nat)
  | completionWrite
  | msixCoalesce (ring : Nat)
  | hcapChange (rate width : Nat)
  | flr (fn : Nat)
  | linkDown (why : HostLoss)
  | segCtlWrite (v : View) (k : Nat) (val : Word)
  | beacon (port : Nat)
  | beaconReceived (port : Nat)
  | beaconerr (port : Nat)
  | toTimer (port : Nat)
  | transmitOpportunity (port : Nat) (res : TxResult)
  | segFrameReceived (port : Nat) (ev : MediumEvent)
  | rosterCommit (v : View) (val : Word)
  | nodeAbsent (port entry : Nat)
  | slotBlockReceived (k : Nat) (blk : BitVec 56) (ctrl : BitVec 256) (r : Int)
  | linkCellReceived (k : Nat) (map : BitVec 56) (cell : List Byte)
  | linkEnable (v : View) (k : Nat) (val : Word)
  | linkDisable (v : View) (k : Nat) (val : Word)
  | laneLock (k : Nat)
  | hello (k : Nat) (inc : BitVec 32)
  | ack (k : Nat) (pinc : BitVec 32)
  | ready (k : Nat) (inc : BitVec 32)
  | handshakeTimeout (k : Nat)
  | absent (k : Nat)
  | retrain (k : Nat)
  | lockReturn (k : Nat)
  | retryTimer (k : Nat)
  | dramTraining (mc : Nat) (gib : Option Nat)
  | dramRequest (master part : Nat) (addr : Nat) (acc : Acc)
  | dramCompletion (mc part : Nat) (sense : List DramSense)
  | windowFill (v : View) (w : Nat) (val : Word)
  | fillDone (w : Nat)
  | scrubVisit (k : Nat) (sense : List DramSense) (onTime : Bool)
  | memLogpop (v : View) (val : Word)
  | bnkRetire (v : View) (val : Word)
  | memRetire (v : View) (lo : Word)
  | deferredStart
  | chatyReset
  | info
  | sense (temp : Int) (power : Nat)
  | fwUpdate
  | mgmtTimeout
  | hartLoad (h : Nat) (rd : Nat) (addr : BitVec 32) (bytes : Nat) (signed : Bool)
  | hartStore (h : Nat) (addr : BitVec 32) (bytes : Nat) (data : BitVec 32)
  | storeDrain (h : Nat)
  | fence (h : Nat) (pred : BitVec 4) (tso : Bool)
  | fenceI (h : Nat)
  | lr (h : Nat) (rd : Nat) (addr : BitVec 32)
  | sc (h : Nat) (rd : Nat) (addr : BitVec 32) (data : BitVec 32) (rl : Bool)
  | amo (h : Nat) (rd : Nat) (op : AmoOp) (addr : BitVec 32) (data : BitVec 32) (rl : Bool)
  | wfi (h : Nat)
  | hartTrap (h : Nat) (interrupt : Bool) (code : Nat) (tval : BitVec 32)
  | hartRun (v : View) (h : Nat) (val : Word)
  | rst (v : View) (h : Nat) (val : Word)
  | evtClaim (v : View) (h : Nat)
  | pinConfigWrite (v : View) (pin : Nat) (aux : Bool) (val : Word)
  | switchEdge (pin : Nat)
  | pinSet (v : View) (g : Nat) (val : Word)
  | pinClr (v : View) (g : Nat) (val : Word)
  | pinTgl (v : View) (g : Nat) (val : Word)
  | edgeCommit (v : View) (val : Word)
  | timedEdgeApply (pin : Nat)
  | pinLevelChange (pin : Nat) (level : Bool)
  | pinTpop (v : View) (val : Word)
  | patternCommit (v : View) (val : Word)
  | serialControlWrite (v : View) (u : Nat) (val : Word)
  | serialByteWrite (v : View) (u : Nat) (val : Word)
  | last (v : View) (u : Nat) (byte : Byte)
  | start (v : View) (u : Nat) (byte : Byte)
  | stop (v : View) (u : Nat) (byte : Byte)
  | readByte (v : View) (u : Nat) (nack : Bool)
  | serialDataRead (v : View) (u : Nat)
  | serialByteReceived (u : Nat) (byte : Byte) (err : Bool)
  | serialByteSent (u : Nat) (err : Bool)
  | eventRaise (src : Nat)
  | eventDelivery (src : Nat)
  | evtClr (v : View) (val : Word)
  | evtRteWrite (v : View) (src : Nat) (val : Word)
  | doze (v : View)
  | sleep (v : View)
  | deep (v : View)
  | cancelOrWake (v : View)
  | entryBegin
  | avsVoltageChange
  | avsRetry
  | avsSetpoint (mv : Nat)
  | smbusWake (addr : BitVec 7)
  | wakePin (pin : Nat)
  | alarm
  | wake
  | wakefail
  | thermWarn
  | therm
  | thermRelease
  | pwrPadRelease (v : View) (val : Word)
  | pwrReset (v : View) (val : Word)
  | pwrPrst (v : View) (val : Word)
  | toVtest (margin : Bool)
  | toShipped (margin : Bool)
  | sealStep (margin : Bool)
  | unsealStep (margin : Bool)
  | returnStep (margin : Bool)
  | scrap (margin : Bool)
  | burnDone
  | wipeDone
  | keyWrite
  | keyClear
  | dbgCcmd (v : View) (val : Word)
  | dbgChal
  | challengeLapse
  | dbgRdat (v : View) (val : Word)
  | go (v : View)
  | clr (v : View)
  | dbgResp
  | responseIntake
  | responseCheck (margin : Bool)
  | openSession (v : View)
  | journalCommit
  | jdrainClose
  | journalSpill (ok : Bool)
  | freeze (v : View) (val : Word)
  | freezeEdge (scope : Nat)
  | release (v : View) (val : Word)
  | resumeEdge (scope : Nat)
  | dbgPrgn (v : View) (val : Word)
  | dbgPlineWrite (v : View) (k : Nat) (val : Word)
  | flRead
  | flProg
  | sectorErase
  | blockErase
  | markBad
  | eraseDone
  | erasefail
  | eraseSuspend
  | eraseResume
  | quotaCommit (v : View) (p : Nat) (lo : Word)
  | userClockEdge
  | csmaAttempt (port : Nat) (res : TxResult)
  | hostReadCompletion (id : Nat) (res : HostRead)
  | configurationSpaceWrite (fn : Nat) (w : CfgWrite)
  | mgmtCodeInvalid
  deriving DecidableEq, Repr

end Sys2Proof
end

