-- ==== Sys2Proof/Decode.lean ====
section
/-! DEFINITION. Commands that words of the table spell. The table of operations and events gives no row any bits: a
command comes from outside as it is. -/

namespace Sys2Proof

/-- No row of the table has bits, so no word spells a command. -/
def decodeTableWord (_nbits _w : Nat) : Option Instr := none

end Sys2Proof
end

