-- ==== Sys2Proof/Machine/Bits.lean ====
section
/-! DEFINITION. Bit fields, byte order and check codes: the helpers every chapter of the manual shares. Fields are
read from naturals, least significant bit 0 (R5). -/

namespace Sys2Proof.Machine

/-- The field [hi:lo] of a value. -/
def fld (w hi lo : Nat) : Nat := w / 2 ^ lo % 2 ^ (hi + 1 - lo)

/-- Bit n of a value. -/
def bit (w n : Nat) : Bool := w.testBit n

/-- A Boolean as a bit at place n. -/
def place (b : Bool) (n : Nat) : Nat := if b then 2 ^ n else 0

/-- The value with its field [hi:lo] replaced. -/
def setFld (w hi lo v : Nat) : Nat :=
  w - fld w hi lo * 2 ^ lo + (v % 2 ^ (hi + 1 - lo)) * 2 ^ lo

/-- Bytes of a value, little-endian (R5). -/
def leBytes : Nat → Nat → List Byte
  | 0, _ => []
  | n + 1, v => BitVec.ofNat 8 v :: leBytes n (v / 256)

/-- The value of little-endian bytes. -/
def leVal : List Byte → Nat
  | [] => 0
  | b :: bs => b.toNat + 256 * leVal bs

/-- Bytes of a value, most significant first. -/
def beBytes (n v : Nat) : List Byte := (leBytes n v).reverse

/-- The value of bytes, most significant first. -/
def beVal (bs : List Byte) : Nat := leVal bs.reverse

/-- 16-bit words of a byte list, little-endian. -/
def wordsOf : List Byte → List Word
  | a :: b :: bs => BitVec.ofNat 16 (a.toNat + 256 * b.toNat) :: wordsOf bs
  | [a] => [BitVec.ofNat 16 a.toNat]
  | [] => []

/-- The value of 16-bit words, low word first. -/
def wordsVal : List Word → Nat
  | [] => 0
  | w :: ws => w.toNat + 65536 * wordsVal ws

/-- The first n words of a value, low word first. -/
def valWords : Nat → Nat → List Word
  | 0, _ => []
  | n + 1, v => BitVec.ofNat 16 v :: valWords n (v / 65536)

/-- The integer that the low `bits` bits of a value spell in two's complement. -/
def sgn (bits v : Nat) : Int :=
  let m := v % 2 ^ bits
  if m < 2 ^ (bits - 1) then (m : Int) else (m : Int) - (2 ^ bits : Nat)

/-- An integer wrapped to a width. -/
def wrap (bits : Nat) (i : Int) : Nat := (i % ((2 ^ bits : Nat) : Int)).toNat

/-- Ceiling of a quotient; 0 for a divisor of 0. -/
def cdiv (a b : Nat) : Nat := (a + (b - 1)) / b

/-- The smaller of a counter's value and its largest. -/
def sat (bits v : Nat) : Nat := min v (2 ^ bits - 1)

/-- Naturals from a to a + n − 1. -/
def upto (a n : Nat) : List Nat := (List.range n).map (a + ·)

/-- Number of set bits among the low n. -/
def popCount : Nat → Nat → Nat
  | 0, _ => 0
  | n + 1, v => v % 2 + popCount n (v / 2)

/-- One bit of a CRC whose generator is written most significant bit first. -/
def crcBit (width poly : Nat) (r : Nat) (b : Bool) : Nat :=
  let top := r.testBit (width - 1) != b
  let r' := r * 2 % 2 ^ width
  if top then Nat.xor r' poly else r'

/-- A CRC over bits in order. -/
def crcBits (width poly : Nat) : Nat → List Bool → Nat
  | r, [] => r
  | r, b :: bs => crcBits width poly (crcBit width poly r b) bs

/-- The bits of a byte, most significant first. -/
def byteBits (b : Byte) : List Bool := (List.range 8).map fun i => b.getLsbD (7 - i)

/-- One bit of the reflected CRC-32 of IEEE 802.3. -/
def crc32Bit (r : Nat) : Nat :=
  if r % 2 = 1 then Nat.xor (r / 2) 0xEDB88320 else r / 2

/-- One byte of the reflected CRC-32. -/
def crc32Byte (r : Nat) (b : Byte) : Nat :=
  let x := Nat.xor r b.toNat
  crc32Bit (crc32Bit (crc32Bit (crc32Bit (crc32Bit (crc32Bit (crc32Bit (crc32Bit x)))))))

/-- CRC-32 with the IEEE 802.3 polynomial over bytes, with its initial value, reflection and final complement. -/
def crc32 (bs : List Byte) : Nat :=
  Nat.xor (bs.foldl crc32Byte 0xFFFFFFFF) 0xFFFFFFFF

/-- CRC-16 with polynomial 0x1021 and initial value 0xFFFF over bytes, most significant bit first (R148). -/
def crc16 (bs : List Byte) : Word :=
  BitVec.ofNat 16 (bs.foldl (fun r b => crcBits 16 0x1021 r (byteBits b)) 0xFFFF)

/-- CRC-8 with polynomial 0x07 and initial value 0 over bytes (R285). -/
def crc8 (bs : List Byte) : Nat := bs.foldl (fun r b => crcBits 8 0x07 r (byteBits b)) 0

/-- The bytes of 16-bit words in stored order, low byte first. -/
def bytesOf : List Word → List Byte
  | [] => []
  | w :: ws => BitVec.ofNat 8 w.toNat :: BitVec.ofNat 8 (w.toNat / 256) :: bytesOf ws

/-- The sum of a list. -/
def total (l : List Nat) : Nat := l.foldl (· + ·) 0

/-- The entry of a list at a place, or a default. -/
def nthD {α : Type} (d : α) : List α → Nat → α
  | [], _ => d
  | a :: _, 0 => a
  | _ :: as, n + 1 => nthD d as n

/-- A list with its entry at a place replaced. -/
def setNth {α : Type} (v : α) : List α → Nat → List α
  | [], _ => []
  | _ :: as, 0 => v :: as
  | a :: as, n + 1 => a :: setNth v as n

/-- The first list entry that a test accepts, with what stands before and after it. -/
def pick {α : Type} (p : α → Bool) : List α → Option (α × List α)
  | [] => none
  | a :: as => if p a then some (a, as) else (pick p as).map fun r => (r.1, a :: r.2)

end Sys2Proof.Machine
end

