-- ==== Sys2Proof/Machine/Crypto.lean ====
section
/-! DEFINITION. The algorithms that the manual names and leaves to their standards: AES-256 in Galois/Counter Mode,
SHA-384 and ECDSA on P-384 (R149 to R151, R382, R387).

PRESUMED: the constants, the block and field layouts and the verification steps come from FIPS 197, NIST SP 800-38D,
FIPS 180-4 and FIPS 186-5, which the manual names by algorithm only (log 44). -/

namespace Sys2Proof.Machine

/-! ### AES-256 -/

/-- The substitution table, entry x in bits 8x + 7 to 8x. -/
def aesTable : Nat :=
  0x16bb54b00f2d99416842e6bf0d89a18cdf2855cee9871e9b948ed9691198f8e19e1dc186b95735610ef6034866b53e708a8bbd4b1f74dde8c6b4a61c2e2578ba08ae7a65eaf4566ca94ed58d6d37c8e779e4959162acd3c25c2406490a3a32e0db0b5ede14b8ee4688902a22dc4f816073195d643d7ea7c41744975fec130ccdd2f3ff1021dab6bcf5389d928f40a351a89f3c507f02f94585334d43fbaaefd0cf584c4a39becb6a5bb1fc20ed00d153842fe329b3d63b52a05a6e1b1a2c830975b227ebe28012079a059618c323c7041531d871f1e5a534ccf73f362693fdb7c072a49cafa2d4adf04759fa7dc982ca76abd7fe2b670130c56f6bf27b777c63

/-- One byte substituted. -/
def aesByte (x : Nat) : Nat := aesTable >>> (8 * x) % 256

/-- The four bytes of a 32-bit column substituted. -/
def aesWord (w : Nat) : Nat :=
  total ((List.range 4).map fun i => aesByte (w >>> (8 * i) % 256) * 256 ^ i)

/-- A byte doubled in the field of AES. -/
def aesTwice (x : Nat) : Nat := if x < 128 then 2 * x else (2 * x) ^^^ 0x11B

/-- Round-key word i from the words before it, latest first. -/
def aesNextKey (i : Nat) (ws : List Nat) : Nat :=
  let t := nthD 0 ws 0
  let t := if i % 8 = 0 then aesWord (t % 0x1000000 * 256 + t / 0x1000000) ^^^ 2 ^ (23 + i / 8)
           else if i % 8 = 4 then aesWord t else t
  nthD 0 ws 7 ^^^ t

/-- `n` more round-key words from word i on, latest first. -/
def aesKeysFrom (i : Nat) : Nat → List Nat → List Nat
  | 0, ws => ws
  | n + 1, ws => aesKeysFrom (i + 1) n (aesNextKey i ws :: ws)

/-- The 60 round-key words of a 32-byte key, in order. -/
def aesKeys (key : List Byte) : List Nat :=
  (aesKeysFrom 8 52 ((List.range 8).map fun i => beVal ((key.drop (28 - 4 * i)).take 4))).reverse

/-- A column after the row shift and the substitution: byte k of the column k places on. -/
def aesShifted (cols : List Nat) (j : Nat) : List Nat :=
  (List.range 4).map fun k => aesByte (nthD 0 cols ((j + k) % 4) >>> (24 - 8 * k) % 256)

/-- Four bytes as a column, the first highest. -/
def aesColumn (bs : List Nat) : Nat := bs.foldl (fun v b => 256 * v + b) 0

/-- The column mix. -/
def aesMixed (bs : List Nat) : List Nat :=
  let b := fun i => nthD 0 bs (i % 4)
  (List.range 4).map fun i => aesTwice (b i) ^^^ aesTwice (b (i + 1)) ^^^ b (i + 1) ^^^ b (i + 2) ^^^ b (i + 3)

/-- The rounds from round r on, of which the last one does not mix. -/
def aesRounds (keys : List Nat) (r : Nat) : Nat → List Nat → List Nat
  | 0, cols => cols
  | n + 1, cols =>
    aesRounds keys (r + 1) n ((List.range 4).map fun j =>
      let bs := aesShifted cols j
      aesColumn (if n = 0 then bs else aesMixed bs) ^^^ nthD 0 keys (4 * r + j))

/-- AES-256 of a 16-byte block, as numbers with the first byte highest. -/
def aesBlock (key : List Byte) (block : Nat) : Nat :=
  let keys := aesKeys key
  let cols := (List.range 4).map fun j => block >>> (96 - 32 * j) % 0x100000000 ^^^ nthD 0 keys j
  (aesRounds keys 1 14 cols).foldl (fun v c => 0x100000000 * v + c) 0

/-! ### Galois/Counter Mode -/

/-- `n` more steps of the product of GCM: `x` is read from its highest bit, bit n - 1 the next. -/
def gcmSteps (x : Nat) : Nat → Nat → Nat → Nat
  | 0, _, z => z
  | n + 1, v, z =>
    gcmSteps x n (if v % 2 = 1 then (v / 2) ^^^ (0xE1 * 2 ^ 120) else v / 2) (if bit x n then z ^^^ v else z)

/-- The product of two blocks in the field of GCM. -/
def gcmMul (x y : Nat) : Nat := gcmSteps x 128 y 0

/-- Bytes as blocks, the last one filled with zeros. -/
def gcmBlocks (bs : List Byte) : List Nat :=
  (List.range (cdiv bs.length 16)).map fun i =>
    let b := (bs.drop (16 * i)).take 16
    beVal b * 256 ^ (16 - b.length)

/-- The hash of additional data and ciphertext under the hash key. -/
def gcmHash (h : Nat) (aad text : List Byte) : Nat :=
  (gcmBlocks aad ++ gcmBlocks text ++ [8 * aad.length * 2 ^ 64 + 8 * text.length]).foldl (fun y b => gcmMul (y ^^^ b) h) 0

/-- The counter block of a 96-bit vector, whose first byte is the low byte of the number. -/
def gcmCounter (iv : BitVec 96) (n : Nat) : Nat := beVal (leBytes 12 iv.toNat) * 0x100000000 + n % 0x100000000

/-- Word i of the key stream of a payload: its bytes lie as the payload's stored bytes do (R149). -/
def gcmStream (key : List Byte) (iv : BitVec 96) (i : Nat) : Word :=
  let block := aesBlock key (gcmCounter iv (2 + i / 8))
  let b := block >>> (112 - 16 * (i % 8)) % 0x10000
  BitVec.ofNat 16 (b % 256 * 256 + b / 256)

/-- The tag of additional data and ciphertext. -/
def gcmTag (key : List Byte) (iv : BitVec 96) (aad text : List Byte) : List Byte :=
  beBytes 16 (gcmHash (aesBlock key 0) aad text ^^^ aesBlock key (gcmCounter iv 1))

/-! ### SHA-384 -/

/-- The round constants. -/
def shaKeys : List Nat :=
  [0x428a2f98d728ae22, 0x7137449123ef65cd, 0xb5c0fbcfec4d3b2f, 0xe9b5dba58189dbbc, 0x3956c25bf348b538,
   0x59f111f1b605d019, 0x923f82a4af194f9b, 0xab1c5ed5da6d8118, 0xd807aa98a3030242, 0x12835b0145706fbe,
   0x243185be4ee4b28c, 0x550c7dc3d5ffb4e2, 0x72be5d74f27b896f, 0x80deb1fe3b1696b1, 0x9bdc06a725c71235,
   0xc19bf174cf692694, 0xe49b69c19ef14ad2, 0xefbe4786384f25e3, 0x0fc19dc68b8cd5b5, 0x240ca1cc77ac9c65]
  ++
  [0x2de92c6f592b0275, 0x4a7484aa6ea6e483, 0x5cb0a9dcbd41fbd4, 0x76f988da831153b5, 0x983e5152ee66dfab,
   0xa831c66d2db43210, 0xb00327c898fb213f, 0xbf597fc7beef0ee4, 0xc6e00bf33da88fc2, 0xd5a79147930aa725,
   0x06ca6351e003826f, 0x142929670a0e6e70, 0x27b70a8546d22ffc, 0x2e1b21385c26c926, 0x4d2c6dfc5ac42aed,
   0x53380d139d95b3df, 0x650a73548baf63de, 0x766a0abb3c77b2a8, 0x81c2c92e47edaee6, 0x92722c851482353b]
  ++
  [0xa2bfe8a14cf10364, 0xa81a664bbc423001, 0xc24b8b70d0f89791, 0xc76c51a30654be30, 0xd192e819d6ef5218,
   0xd69906245565a910, 0xf40e35855771202a, 0x106aa07032bbd1b8, 0x19a4c116b8d2d0c8, 0x1e376c085141ab53,
   0x2748774cdf8eeb99, 0x34b0bcb5e19b48a8, 0x391c0cb3c5c95a63, 0x4ed8aa4ae3418acb, 0x5b9cca4f7763e373,
   0x682e6ff3d6b2b8a3, 0x748f82ee5defb2fc, 0x78a5636f43172f60, 0x84c87814a1f0ab72, 0x8cc702081a6439ec]
  ++
  [0x90befffa23631e28, 0xa4506cebde82bde9, 0xbef9a3f7b2c67915, 0xc67178f2e372532b, 0xca273eceea26619c,
   0xd186b8c721c0c207, 0xeada7dd6cde0eb1e, 0xf57d4f7fee6ed178, 0x06f067aa72176fba, 0x0a637dc5a2c898a6,
   0x113f9804bef90dae, 0x1b710b35131c471b, 0x28db77f523047d84, 0x32caab7b40c72493, 0x3c9ebe0a15c9bebc,
   0x431d67c49c100d4c, 0x4cc5d4becb3e42b6, 0x597f299cfc657e2a, 0x5fcb6fab3ad6faec, 0x6c44198c4a475817]

/-- The initial hash value. -/
def shaStart : List Nat :=
  [0xcbbb9d5dc1059ed8, 0x629a292a367cd507, 0x9159015a3070dd17, 0x152fecd8f70e5939,
   0x67332667ffc00b31, 0x8eb44a8768581511, 0xdb0c2e0d64f98fa7, 0x47b5481dbefa4fa4]

/-- A 64-bit word turned right. -/
def shaTurn (x n : Nat) : Nat := x >>> n + x % 2 ^ n * 2 ^ (64 - n)

/-- `n` more words of the message schedule, latest first. -/
def shaWords : Nat → List Nat → List Nat
  | 0, ws => ws
  | n + 1, ws =>
    let a := nthD 0 ws 1
    let b := nthD 0 ws 14
    shaWords n (((nthD 0 ws 15 + (shaTurn b 1 ^^^ shaTurn b 8 ^^^ b >>> 7) + nthD 0 ws 6
      + (shaTurn a 19 ^^^ shaTurn a 61 ^^^ a >>> 6)) % 2 ^ 64) :: ws)

/-- One round on the working words a to h. -/
def shaRound (v : List Nat) (k w : Nat) : List Nat :=
  let x := nthD 0 v
  let e := x 4
  let t := x 7 + (shaTurn e 14 ^^^ shaTurn e 18 ^^^ shaTurn e 41) + ((e &&& x 5) ^^^ ((2 ^ 64 - 1 - e) &&& x 6)) + k + w
  let u := (shaTurn (x 0) 28 ^^^ shaTurn (x 0) 34 ^^^ shaTurn (x 0) 39)
    + ((x 0 &&& x 1) ^^^ (x 0 &&& x 2) ^^^ (x 1 &&& x 2))
  [(t + u) % 2 ^ 64, x 0, x 1, x 2, (x 3 + t) % 2 ^ 64, e, x 5, x 6]

/-- One block of 128 bytes. -/
def shaBlock (h : List Nat) (bs : List Byte) : List Nat :=
  let first := (List.range 16).map fun i => beVal ((bs.drop (8 * (15 - i))).take 8)
  let ws := (shaWords 64 first).reverse
  let v := (shaKeys.zip ws).foldl (fun v e => shaRound v e.1 e.2) h
  (h.zip v).map fun e => (e.1 + e.2) % 2 ^ 64

/-- SHA-384 of a byte string: 48 bytes. -/
def sha384 (bs : List Byte) : List Byte :=
  let n := bs.length
  let padded := bs ++ 0x80 :: List.replicate ((239 - n % 128) % 128) 0 ++ beBytes 16 (8 * n)
  let h := (List.range (padded.length / 128)).foldl (fun h i => shaBlock h ((padded.drop (128 * i)).take 128)) shaStart
  (h.take 6).flatMap (beBytes 8)

/-! ### ECDSA on P-384 -/

/-- The prime of the field. -/
def curveP : Nat :=
  0xfffffffffffffffffffffffffffffffffffffffffffffffffffffffffffffffeffffffff0000000000000000ffffffff

/-- The order of the base point. -/
def curveN : Nat :=
  0xffffffffffffffffffffffffffffffffffffffffffffffffc7634d81f4372ddf581a0db248b0a77aecec196accc52973

/-- The constant of the curve y² = x³ - 3x + b. -/
def curveB : Nat :=
  0xb3312fa7e23ee7e4988e056be3f82d19181d9c6efe8141120314088f5013875ac656398d8a2ed19d2a85c8edd3ec2aef

/-- The base point. -/
def curveX : Nat :=
  0xaa87ca22be8b05378eb1c71ef320ad746e1d3b628ba79b9859f741e082542a385502f25dbf55296c3a545e3872760ab7
def curveY : Nat :=
  0x3617de4a96262c6f5d9e98bf9292dc29f8f41dbd289a147ce9da3113b5f0b8c00a60b1ce1d7e819d7a431d7c90ea0e5f

/-- A power modulo m, by the lowest `n` bits of the exponent, highest first. -/
def powMod (b e m : Nat) : Nat → Nat → Nat
  | 0, r => r
  | n + 1, r => powMod b e m n (if bit e n then r * r % m * b % m else r * r % m)

/-- A difference in the field. -/
def fsub (a b : Nat) : Nat := (a + (curveP - b % curveP)) % curveP

/-- A point in Jacobian coordinates: z = 0 is the point at infinity. -/
structure Point where
  x : Nat
  y : Nat
  z : Nat
  deriving DecidableEq, Repr

/-- Twice a point. -/
def pointTwice (a : Point) : Point :=
  let yy := a.y * a.y % curveP
  let s := 4 * a.x * yy % curveP
  let m := 3 * fsub a.x (a.z * a.z) * (a.x + a.z * a.z) % curveP
  let x := fsub (m * m) (2 * s)
  ⟨x, fsub (m * fsub s x) (8 * yy * yy), 2 * a.y * a.z % curveP⟩

/-- The sum of two points. -/
def pointAdd (a b : Point) : Point :=
  if a.z = 0 then b
  else if b.z = 0 then a
  else
    let aa := a.z * a.z % curveP
    let bb := b.z * b.z % curveP
    let u := a.x * bb % curveP
    let s := a.y * (bb * b.z) % curveP
    let h := fsub (b.x * aa) u
    let r := fsub (b.y * (aa * a.z)) s
    if h = 0 then (if r = 0 then pointTwice a else ⟨1, 1, 0⟩)
    else
      let hh := h * h % curveP
      let x := fsub (fsub (r * r) (h * hh)) (2 * u * hh)
      ⟨x, fsub (r * fsub (u * hh) x) (s * (h * hh)), h * (a.z * b.z) % curveP⟩

/-- The sum of two multiples, by the lowest `n` bits of the two factors, highest first. -/
def pointSum (u v : Nat) (a b : Point) : Nat → Point → Point
  | 0, r => r
  | n + 1, r =>
    let r := pointTwice r
    let r := if bit u n then pointAdd r a else r
    pointSum u v a b n (if bit v n then pointAdd r b else r)

/-- The numbers of a 96-byte pair: the first 48 bytes and the last 48, big-endian. -/
def pairOf (bs : List Byte) : Nat × Nat := (beVal (bs.take 48), beVal ((bs.drop 48).take 48))

/-- A key x then y is a point of P-384 (R382). -/
def validPoint (key : List Byte) : Bool :=
  let (x, y) := pairOf key
  key.length == 96 && decide (x < curveP ∧ y < curveP) && y * y % curveP == fsub (x * x * x + curveB) (3 * x)

/-- A signature r then s over a message verifies under a key x then y, both of 96 bytes (R151). -/
def signatureGood (key msg sig : List Byte) : Bool :=
  let (r, s) := pairOf sig
  let (x, y) := pairOf key
  let w := powMod s (curveN - 2) curveN 384 1
  let q := pointSum (beVal (sha384 msg) * w % curveN) (r * w % curveN) ⟨curveX, curveY, 1⟩ ⟨x, y, 1⟩ 384 ⟨1, 1, 0⟩
  validPoint key && sig.length == 96 && decide (1 ≤ r ∧ r < curveN ∧ 1 ≤ s ∧ s < curveN) && q.z != 0
    && q.x * powMod (q.z * q.z) (curveP - 2) curveP 384 1 % curveP % curveN == r

end Sys2Proof.Machine
end

