-- ==== Sys2Proof/Config.lean ====
section
/-! DEFINITION. What one unit or one implementation fixes, and the values the manual leaves open. Every constant here
is opaque: nothing in Lean can evaluate it, so a statement holds whatever it is. A free value takes the number of the
draw (`State.freeCtr`) and its own number within that draw as its arguments. -/

namespace Sys2Proof.Config

/-- Serial number, fused per unit (R386, LC_SNk). -/
opaque serial : BitVec 128

/-- Silicon revision of IDCODE (Table 2-6). -/
opaque siliconRev : BitVec 4

/-- Gaulub's JEP106 manufacturer code (Table 2-6). -/
opaque jep106 : BitVec 11

/-- Spare columns in use of a bank, BNK_OWNn.SPC, 0 to 4, fused at test (R114, R118). -/
opaque spareColumns : Nat → Fin 5

/-- Whether the devices of a DDR5 channel require the doubled refresh rate (R204, Table 14-1). -/
opaque doubledRefresh : Nat → Bool

/-- Version of the ROM firmware (R327). -/
opaque romVersion : Word

/-- One undefined bit (R77, R105, R432). -/
opaque freeBit : Nat → Nat → Bool

/-- One undefined 16-bit word. -/
opaque freeWord : Nat → Nat → BitVec 16

/-- One undefined byte (R305). -/
opaque freeByte : Nat → Nat → BitVec 8

/-- Undefined values of the pins of a hard site (R432). -/
opaque freePins : Nat → Nat → BitVec 48

/-- Nanoseconds that always-on logic counts across a stay in M8 (R368). -/
opaque sleepTime : Nat → Nat

/-- Boundary-scan data (R51): the chain's order is in the BSDL description, which the manual does not give. -/
opaque scanData : Nat → BitVec 48

/-- The 256-bit nonce of a challenge, from the on-die random source (R386). -/
opaque nonce : Nat → BitVec 256

/-- Gaulub's debug key in ROM, x then y (R387). -/
opaque debugKey : List Byte

/-- Whether a firmware package verifies, and its version (R328). -/
opaque packageVersion : List Byte → Option (BitVec 16)

/-- The AES-256-CMAC seal of a journal sector: sector index, its 4,096 bytes (R398). -/
opaque cmacSeal : Nat → List Byte → List Byte

end Sys2Proof.Config
end

