-- ==== Sys2Proof/Machine/State.lean ====
section
/-! DEFINITION. The state of the ET9: every register, buffer, queue, counter, mode and pin of the manual, as plain
data, and the queue of waiting commands. Registers that are written and read back as a word live in sparse tables
keyed by their BAR0 offset; a table lists only what differs from reset. Reset values the manual does not give are
named in the assumption log. -/

namespace Sys2Proof.Machine

/-! ### Modes, clocks and power (chapters 1, 9 and 17) -/

/-- The operating modes of Table 1-3. -/
inductive Mode where
  | m0 | m1 | m2 | m3 | m4 | m5 | m6 | m7 | m8 | m9 | m10 | m11
  deriving DecidableEq, Repr

/-- Root clock, SYSTIME and the reference (R10, R14, R185 to R193). -/
structure Clock where
  /-- clocks run: reset has been released since the last reset (R10, R185) -/
  started : Bool := false
  /-- F1 edges since reset release; the wheel position and every divider phase follow from it (R10, R121) -/
  f1 : Nat := 0
  /-- SYSTIME of the last slot edge, in ns (R185) -/
  systime : Nat := 0
  /-- F1 cycle of the running slot (R189) -/
  k : Nat := 0
  /-- F1 cycles of the running slot: 599, 600 or 601 (R188) -/
  slotLen : Nat := 600
  /-- a committed TIM_LDSEC, taken at the next slot edge (R190) -/
  ldsec : Option Nat := none
  /-- a reference fault is present, TIM_STAT.REFF (R14, R191) -/
  refFault : Bool := false
  /-- the fault is that REF_CLK is absent: the always-on domain has no edges (R14, R48) -/
  refAbsent : Bool := false
  /-- TIM_STAT.REFSEEN -/
  refSeen : Bool := false
  /-- TIM_STAT.OOS (R192) -/
  oos : Bool := false
  /-- TIM_STAT.LOCK (R192, R292) -/
  lock : Bool := false
  /-- consecutive slots with |ε| under 10 ns (R192) -/
  streak : Nat := 0
  /-- lengthened and shortened slots of the running frame, and latched (R188, R189) -/
  longLive : Nat := 0
  shortLive : Nat := 0
  longLat : Nat := 0
  shortLat : Nat := 0
  /-- this slot edge is a frame boundary whose three steps are still to be carried out (R196) -/
  boundaryDue : Bool := false
  deriving DecidableEq, Repr

/-- What a VCORE change was started for (R361, R364, R367). -/
inductive AvsFor where
  | setpoint | enterM8 | wakeM8
  /-- the wake that follows a failed entry to M8 (R364) -/
  | wakeAbort
  deriving DecidableEq, Repr

/-- What a pad does to its ball: output value, output enable, and PULL of PIN_CFG, 0 none, 1 up, 2 down (R369). -/
structure Drive where
  val : Bool := false
  en : Bool := false
  pull : Nat := 0
  deriving DecidableEq, Repr

/-- A VCORE change in progress (R360). -/
structure AvsChange where
  mv : Nat
  attempts : Nat
  why : AvsFor
  deriving DecidableEq, Repr

/-- A cause recorded in PWR_STAT.WAKE. -/
inductive WakeCause where
  | smbus | pin | alarm | pf0
  deriving DecidableEq, Repr

/-- Supplies, low-power requests, wake, resets (chapter 17). -/
structure Power where
  /-- VAUX in range and PWR_OK high (R358) -/
  vauxOk : Bool := true
  /-- PWR_MODE.TARGET -/
  target : Nat := 5
  /-- a request waits for the harts (PWR_MODE.PEND before entry begins, R363) -/
  waiting : Bool := false
  /-- entry in progress toward this mode, the F1 edge at which it began, and the last step of Table 17-3 taken (R364) -/
  entry : Option Mode := none
  entryAt : Nat := 0
  entryStep : Nat := 0
  /-- SYS_MODE.LAST before the entry, for one that ends back in M5 -/
  prevLast : Mode := .m0
  /-- F1 edge at which M7 was reached, from which the alarm counts (R365) -/
  lowSince : Nat := 0
  /-- wake pins with their IMODE, as always-on logic holds them from entry on (R353) -/
  wakePins : List (Nat × Nat) := []
  /-- event WAKE is to be raised once the ET9 is in M5 (R367) -/
  wakeDue : Bool := false
  /-- PWR_STAT fields -/
  wakeCause : Option WakeCause := none
  lastLow : Nat := 0
  replay : Bool := false
  avsFail : Bool := false
  /-- a wake source has fired and the wake has not been carried out (R367) -/
  wakeArmed : Option WakeCause := none
  /-- PWR_PAD_RELEASE.HELD, and the latched value, enable and pull of held pads (R369) -/
  held : Word := 0
  padLatch : Tbl Drive := []
  /-- held groups that a write has released, until the next F8 edge (R369) -/
  releasing : Word := 0
  /-- PWR_RSTCAUSE -/
  rstCause : Word := 0x8000
  /-- PWR_VSET: last completed setpoint in mV -/
  vset : Nat := 700
  avs : Option AvsChange := none
  /-- over-temperature shutdown holds M1 (R362) -/
  thermHold : Bool := false
  /-- the reset in progress is the internal one of a wake from M9, which keeps pad hold (R369) -/
  deepWake : Bool := false
  /-- PWR_CORE_EN and CFG_ERR_N asserted (R161, R422) -/
  coreEn : Bool := true
  cfgErr : Bool := false
  deriving DecidableEq, Repr

/-! ### Register access (chapter 2) -/

/-- A framed write that the bus has accepted (R41). -/
structure FramedWrite where
  view : View
  off : Nat
  val : Word
  deriving DecidableEq, Repr

/-- The mailbox of one view (R45, R46). -/
structure Mailbox where
  valid : Bool := false
  busy : Bool := false
  seq : Nat := 0
  status : Nat := 0
  ftag : Nat := 0
  /-- F1 edge of the last selector commit (R46) -/
  since : Nat := 0
  /-- the committed selector -/
  sel : BitVec 32 := 0
  /-- 128 bits, MBX_D0 lowest -/
  data : BitVec 128 := 0
  deriving DecidableEq, Repr

/-- One register access of the side-port or JTAG view (R50, R52). -/
structure PortAccess where
  /-- an access has been started since reset -/
  started : Bool := false
  write : Bool := false
  off : Nat := 0
  data : Word := 0
  status : Nat := 0
  inProgress : Bool := false
  deriving DecidableEq, Repr

/-- The side port (R49, R50). -/
structure SidePort where
  /-- the access of the running or last transaction -/
  acc : PortAccess := {}
  /-- a transaction is open (SIDE_CS_N low) -/
  selected : Bool := false
  /-- STREAM words waiting for the bus, and their offset -/
  buf : List Word := []
  bufOff : Nat := 0
  deriving DecidableEq, Repr

/-- The JTAG port (R51, R52). -/
structure Tap where
  ir : Nat := 1
  /-- what Capture-IR loaded into the instruction register's shift stage (R51) -/
  irCapture : BitVec 8 := 1
  acc : PortAccess := {}
  /-- boundary-scan cells of the GPIO balls as shifted in last: output value and enable by pin (R51) -/
  cells : Tbl (Bool × Bool) := []
  /-- the data register captured last -/
  dr : BitVec 48 := 0
  deriving DecidableEq, Repr

/-! ### The change journal (chapter 19) -/

/-- What a journal record's change does once the record is committed (R394): plain data, applied by
`Machine/Commit.lean`. -/
inductive Change where
  /-- nothing is deferred -/
  | done
  /-- a register write by a view takes effect; `val` holds _HI:_LO for a two-word commit -/
  | reg (v : View) (off : Nat) (val : Nat)
  /-- a framed write becomes pending (R43) -/
  | framed (v : View) (off : Nat) (val : Word)
  /-- a write that was refused completes on the bus (R39) -/
  | refusedWrite (v : View) (off : Nat) (status : Nat)
  /-- the running load may read its packets (R396) -/
  | loadStart
  /-- a checked swap request: partition, group, KEEP, target frame, boundary, requester -/
  | swap (part cg : Nat) (keep : Bool) (frame boundary : Nat) (r : Option (Nat × Word)) (view : Option View)
  /-- a checked flip becomes SCHEDULED for a boundary, or applies at once (`none`) -/
  | flip (part : Nat) (boundary : Option Nat)
  /-- a checked schedule file may be written -/
  | afile (part : Nat)
  /-- a life-cycle step may burn its word -/
  | lcStep (part : Nat) (step word : Nat)
  /-- a key slot takes a value; `none` clears it -/
  | key (slot : Nat) (value : Option (List Byte)) (check : BitVec 32)
  /-- a token word may be burnt -/
  | token (word : Nat)
  /-- a scope is granted -/
  | grant (scope : Nat)
  /-- DBG_CTL.OPEN (R385) -/
  | session (v : View)
  /-- a capture command of a view -/
  | capture (v : View) (val : Word)
  /-- a firmware package is stored -/
  | fwUpdate (version : Nat) (pkg : List Byte)
  deriving DecidableEq, Repr

/-- The fields of a record before it has a SEQ and a CHAIN (Table 19-1). -/
structure JRec where
  sys : Nat
  cls : Nat
  part : Nat
  idx : Nat
  kind : Nat
  status : Nat
  obj : Nat
  old : Nat
  new : Nat
  deriving DecidableEq, Repr

/-- An intake entry: a record, the changes it stands for (R395), the places it needs (R396). -/
structure JEntry where
  record : JRec
  count : Nat
  refusable : Bool
  need : Nat
  changes : List Change
  deriving DecidableEq, Repr

/-- A committed record in the ring, with what the sinks have done with it (R396 to R398). -/
structure RingRec where
  seq : Nat
  part : Nat
  bytes : BitVec 256
  reserved : Bool
  inBuffer : Bool
  hostTaken : Bool
  flashTaken : Bool
  deriving DecidableEq, Repr

/-- A JDRAIN buffer (R397). -/
structure JBuf where
  ring : Nat
  tag : Word
  cap : Nat
  addr : Nat
  recs : List (Nat × BitVec 256)
  opened : Nat
  deriving DecidableEq, Repr

/-- Journal counters (chapter 19, PART 0). -/
structure JCnt where
  committed : Nat := 0
  folds : Nat := 0
  refusals : Nat := 0
  missed : Nat := 0
  deriving DecidableEq, Repr

/-- Intake, ring and sinks of the journal. -/
structure Journal where
  intake : List JEntry := []
  waiting : List JEntry := []
  ring : List RingRec := []
  seq : Nat := 0
  prev : BitVec 256 := 0
  /-- SEQ of the last record committed before reset, for BOOT (R399) -/
  bootOld : Nat := 0xFFFFFFFF
  lastSeq : Option Nat := none
  /-- second places held for ending records, per partition (R396) -/
  heldPlaces : Tbl Nat := []
  missedCount : Nat := 0
  /-- JRN_STAT.MISSED and SPILLERR -/
  missed : Bool := false
  spillErr : Bool := false
  /-- partitions whose share of more than 0 places is full -/
  full : List Nat := []
  live : JCnt := {}
  lat : JCnt := {}
  latOldest : Nat := 0
  buffers : List JBuf := []
  deriving DecidableEq, Repr

/-! ### Fabric, hard sites, banks (chapters 3 to 6) -/

/-- One configuration plane: frames of types 0 to 4 by frame address (PLANE bit left out), and the CRC kept for each
(R140, R148, R181). -/
structure Plane where
  frames : Tbl (List Word) := []
  crcs : Tbl Word := []
  deriving DecidableEq, Repr

/-- A region's shadow state (Table 8-1). -/
inductive Shadow where
  | idle
  | loading
  | staged (cg : Nat)
  deriving DecidableEq, Repr

/-- A MAC site (R134 to R139). -/
structure Mac where
  k0 : Word := 0
  k1 : Word := 0
  acc0 : BitVec 48 := 0
  acc1 : BitVec 48 := 0
  out : BitVec 32 := 0
  /-- results on their way to OUT: F1 edge and value (R69) -/
  pend : List (Nat × BitVec 32) := []
  /-- values of ACC0 by the F1 edge of the capture that left them, newest first (R139) -/
  hist : List (Nat × BitVec 48) := []
  deriving DecidableEq, Repr

/-- OUT of a memory site: RDATA, UE, COR (Table 3-6). -/
structure SiteOut where
  data : Word := 0
  ue : Bool := false
  cor : Bool := false
  deriving DecidableEq, Repr

/-- A memory site's fabric port: OUT and the read results on their way to it (R69, R119). -/
structure MemSite where
  out : SiteOut := {}
  pend : List (Nat × SiteOut) := []
  deriving DecidableEq, Repr

/-- How a stored byte of a bank decodes (R115, R117): good, one bit wrong and corrected, two or more bits wrong. -/
inductive Chk where
  | good
  | cor
  | ue
  deriving DecidableEq, Repr

/-- A port B request waiting at a bank (R121 to R123). -/
structure BReq where
  id : Nat
  master : Nat
  part : Nat
  addr : Nat
  acc : Acc
  deriving DecidableEq, Repr

/-- A run of port B accesses of the queue or DMA engine over bytes from a system address on: each of at most 32 bits, one
after another (R113, R121). -/
structure BankRun where
  /-- system address of the access that waits, and its request number -/
  addr : Nat
  id : Nat
  /-- bytes from that access on -/
  left : Nat
  /-- past the bank's last byte it goes on at the bank's first (R113), not in the next bank -/
  wraps : Bool
  /-- bytes read so far; bytes still to be written -/
  got : List Byte
  put : Option (List Byte)
  deriving DecidableEq, Repr

/-- A port B completion: F1 edge, status, data read (R121, R123). -/
structure BDone where
  id : Nat
  master : Nat
  due : Nat
  status : Nat
  data : List Byte
  deriving DecidableEq, Repr

/-- Writes that each port made in one array cycle, with the bytes they replaced (R126). -/
structure ArrayCycle where
  f1 : Nat
  /-- port B has served a request in this cycle -/
  bUsed : Bool := false
  aWrote : List (Nat × Byte × Byte × Chk) := []
  bWrote : List (Nat × Byte × Byte × Chk) := []
  deriving DecidableEq, Repr

/-- A handover fill in progress: the master that takes the bank, the old partition when it crosses, and the F1 edge at
which it began (R129, R130, Table 14-5). -/
structure BFill where
  master : Nat
  oldPart : Option Nat
  since : Nat
  deriving DecidableEq, Repr

/-- Everything the fabric configuration drives. -/
structure Fabric where
  active : Plane := {}
  shadow : Plane := {}
  /-- region to shadow state (Table 8-1) -/
  shadowState : Tbl Shadow := []
  /-- regions whose active contents still come from this slot (R182): 1 primary, 2 fallback -/
  fromSlot : Tbl Nat := []
  /-- active frames found unrepairable, with the numbers of their bad bits (R182) -/
  unrep : Tbl (List Nat) := []
  /-- personality: 0 native, n for ET7-n (R31, R33) -/
  pers : Nat := 0
  /-- flip-flops, key ((region·16 + tile)·16 + cluster)·32 + 2·element + n (R59) -/
  ff : Tbl Bool := []
  /-- X3 output registers, key region·1,216 + output (R80) -/
  x3 : Tbl Bool := []
  /-- Bridge stages, key stage·3,072 + source (R86, R100) -/
  bridge : Tbl Word := []
  /-- X5 registers, key region·64 + edge bit (R97) -/
  x5in : Tbl Bool := []
  x5out : Tbl Bool := []
  /-- MAC sites, key region·16 + tile -/
  mac : Tbl Mac := []
  /-- memory sites by bank -/
  site : Tbl MemSite := []
  /-- hard sites, region·16 + tile, that a command has already made capture at the coming edge (R69) -/
  captured : List Nat := []
  /-- launching registers by number (`moveKey`) and the F1 edge at which each last changed, kept for 8 edges (R105) -/
  moved : Tbl Nat := []
  /-- FSPs whose ring announcement of this F1 cycle a command has already carried out (R222) -/
  announced : List Nat := []
  /-- probe selects, key region·16 + output (R406) -/
  probe : Tbl Word := []
  /-- the two stages between a probe line's output and the pad register (R406) -/
  probePipe : Tbl (Bool × Bool) := []
  deriving DecidableEq, Repr

/-- The memory banks (chapter 6). Data and check status are kept apart; an unlisted byte is data 0x00 that decodes as
a double error: poison (R117). -/
structure Banks where
  data : List Host.Cell := []
  chk : Tbl Chk := []
  /-- owner master per bank (R128) -/
  master : Tbl Nat := []
  fill : Tbl (Option BFill) := []
  retired : List Nat := []
  waiting : Tbl (List BReq) := []
  done : List BDone := []
  nextId : Nat := 0
  cycle : Tbl ArrayCycle := []
  /-- banks held by type-1 frames of a load or a group (R166): bank to partition·4 + group -/
  typed : Tbl Nat := []
  /-- conflict counters, key 16·master + partition (R125) -/
  conflict : Tbl Nat := []
  conflictLat : Tbl Nat := []
  deriving DecidableEq, Repr

/-! ### Images, loads, swaps (chapters 7 and 8) -/

/-- Where a load's image comes from (R155 to R157). -/
inductive LoadPath where
  | slot (n : Nat)
  | host (ring : Nat) (tag : Word) (addr len : Nat)
  | side
  deriving DecidableEq, Repr

/-- How far a load has come. -/
inductive LoadPhase where
  | header
  | journal
  | stream
  | checks
  deriving DecidableEq, Repr

/-- A load, waiting or running (R155 to R158). -/
structure Load where
  view : Nat
  part : Nat
  cg : Nat
  path : LoadPath
  /-- started from M1, M2 or M4: clears and activates (R140) -/
  device : Bool
  phase : LoadPhase
  /-- image words received so far (host and side port) -/
  buf : List Word
  /-- next word of the image to be read -/
  pos : Nat
  imgId : Nat
  pers : Nat
  ksel : Nat
  sig : Bool
  len : Nat
  nonce : BitVec 96
  fadr : Option Nat
  regmask : Option (List Nat)
  /-- regions that the loader has read ahead in the image's REGMASK, until the REGMASK packet runs (R164, log 117) -/
  claim : List Nat
  written : List Nat
  banks : List Nat
  lastData : Nat
  deriving DecidableEq, Repr

/-- What the loader registers of one view show (chapter 7). -/
structure LoadStat where
  state : Nat := 0
  path : Nat := 0
  cause : Nat := 0
  status : Nat := 0
  fadr : BitVec 32 := 0
  fcrc : Word := 0
  imgId : BitVec 32 := 0
  ksel : Nat := 0
  pers : Word := 0
  failAdr : BitVec 32 := 0
  deriving DecidableEq, Repr

/-- CFG_BOOTSTAT. -/
structure BootStat where
  pcause : Nat := 0
  fcause : Nat := 0
  pempty : Bool := false
  fempty : Bool := false
  slot : Nat := 0
  deriving DecidableEq, Repr

/-- The loader. -/
structure Loader where
  running : Option Load := none
  waiting : List Load := []
  stat : Tbl LoadStat := []
  boot : BootStat := {}
  /-- the power-up load stands between its primary and its fallback slot (R155) -/
  fallbackDue : Bool := false
  /-- CFG_REGMASK of the running or most recent load of each view (R162) -/
  regmask : Tbl (List Nat) := []
  deriving DecidableEq, Repr

/-- An accepted swap request (R170, R173). -/
structure SwapReq where
  keep : Bool
  frame : Nat
  boundary : Nat
  /-- ring pair and TAG of a SWAP descriptor -/
  ring : Option (Nat × Word)
  /-- released to its swap edge by step 3 of the frame boundary (R196) -/
  released : Bool
  deriving DecidableEq, Repr

/-- A commit group (R167, R168); the staged regions are those whose shadow state names it. -/
structure Group where
  sched : Option SwapReq := none
  /-- a checked SWAP whose record is in the intake -/
  inJournal : Bool := false
  cause : Nat := 0
  deriving DecidableEq, Repr

/-- Commit groups and the configuration scrub. -/
structure Swaps where
  /-- key partition·4 + group -/
  groups : Tbl Group := []
  /-- next configuration frame of the scrub: index into its reading order (R181) -/
  scrubPos : Nat := 0
  /-- F1 edge of the scrub's last frame read (R181), and the frames it has repaired (R183) -/
  scrubAt : Nat := 0
  repairs : Nat := 0
  deriving DecidableEq, Repr

/-! ### Almanac (chapter 9) -/

/-- A page flip being checked or scheduled (R209, R210). -/
structure Flip where
  next : Bool
  frame : Nat
  /-- `none` while CHECKING -/
  boundary : Option Nat
  inJournal : Bool
  view : Option View
  ring : Option (Nat × Word)
  deriving DecidableEq, Repr

/-- What occupies a partition's inactive page (R206 to R208). -/
inductive AlmBusy where
  | copy (ring : Option (Nat × Word))
  | bulk (ring : Nat) (tag : Word) (addr len : Nat) (entries : Option (List (BitVec 128))) (crc : Nat) (writing : Bool)
  deriving DecidableEq, Repr

/-- Per-partition Almanac state. -/
structure AlmPart where
  /-- the page that is active, 0 or 1 -/
  page : Nat := 0
  flip : Option Flip := none
  busy : Option AlmBusy := none
  cause : Nat := 0
  fail : Nat := 0
  deriving DecidableEq, Repr

/-- The Almanac: entries by page·262,144 + entry (R199). -/
structure Almanac where
  entries : Tbl (BitVec 128) := []
  parts : Tbl AlmPart := []
  deriving DecidableEq, Repr

/-! ### Queue engine (chapter 10) -/

/-- Queue counters (Table 10-9). -/
structure QCnt where
  admitted : Nat := 0
  delivered : Nat := 0
  refused : Nat := 0
  late : Nat := 0
  drained : Nat := 0
  lateCells : Nat := 0
  deriving DecidableEq, Repr

/-- A draining or pending epoch (R176 to R179). -/
structure OldEpoch where
  pending : Bool
  epoch : Nat
  egress : Nat
  deadline : Nat
  deriving DecidableEq, Repr

/-- One queue. -/
structure Queue where
  cfg : BitVec 96 := 0
  tokens : Nat := 0
  epoch : Nat := 0
  old : Option OldEpoch := none
  /-- earliest start of promised admissions into the current epoch (R180) -/
  epochStart : Nat := 0
  /-- its table entry holds an uncorrectable word, found by the scrubber (R313) -/
  bad : Bool := false
  /-- the engine has read that word (Table 14-4) -/
  dead : Bool := false
  cnt : QCnt := {}
  lat : QCnt := {}
  deriving DecidableEq, Repr

/-- A booked position (R225, R226). -/
structure Booking where
  slot : Nat
  finish : Nat
  /-- number of the decision that booked it: bookings of one decision stand in order of their slots (R231) -/
  seq : Nat := 0
  /-- its cell could not take it (R233) -/
  missed : Bool := false
  deriving DecidableEq, Repr

/-- LATE causes (Table 10-8), highest first. -/
inductive LateCause where
  | power | capture | ue | hostStall | partnerAbsent | stranger | medium
  deriving DecidableEq, Repr

/-- How a leg ended, or that it has not. -/
inductive LegEnd where
  | running
  | delivered
  | late (c : LateCause)
  | drained
  | discarded
  /-- ended with a status and a cause of its own: source failures, 16 failed attempts, UE -/
  | failed (status cause : Nat)
  deriving DecidableEq, Repr

/-- A receive buffer. -/
structure RxBuf where
  addr : Nat
  cells : Nat
  tag : Word
  deriving DecidableEq, Repr

/-- An admitted leg of a transfer. -/
structure Leg where
  idx : Nat
  qid : Nat
  cls : Nat
  egress : Nat
  epoch : Nat
  /-- cells not yet delivered or discarded -/
  left : Nat
  /-- positions of the cells still undelivered, oldest first -/
  booked : List Booking
  promise : Nat
  /-- TAG, LATEACT and RETRY of the queue at the decision (R215) -/
  tag : Word
  lateact : Bool
  retry : Nat
  /-- late facts recorded so far (R233) -/
  facts : List LateCause
  /-- attempts made on a segment port (R275) -/
  attempts : Nat
  /-- receive buffer that a host path fills (R252) -/
  rxbuf : Option RxBuf
  ending : LegEnd
  deriving DecidableEq, Repr

/-- Which quota a transfer's data are charged to (R234). -/
inductive Charge where
  | none | promised | shaped
  deriving DecidableEq, Repr

/-- A transfer in the engine. -/
structure Xfer where
  tid : Nat
  sub : Submission
  /-- legs not yet decided: index i of QID + i (R223) -/
  undecided : List Nat
  legs : List Leg
  /-- refused legs: index, status, cause -/
  refusals : List (Nat × Nat × Nat)
  charge : Charge
  /-- source data in the cell buffer -/
  data : Option (List Byte)
  /-- the source read failed (R255, R222) -/
  srcFail : Option Nat
  /-- the read of a bank source under way (R222) -/
  reader : Option BankRun := none
  /-- cells in the partition's spill window: cell and DRAM offset, oldest first (R216) -/
  spill : List (Nat × Nat) := []
  /-- cells whose words in the cell buffer are uncorrectable (R313, R321) -/
  bad : List Nat := []
  decided : Bool
  /-- FINAL has been issued; late cells may still be on their way (R233) -/
  finalled : Bool := false
  deriving DecidableEq, Repr

/-- A fabric stream port's ring and signals (R219 to R222). -/
structure Fsp where
  /-- entries read since the ring was enabled -/
  head : Nat := 0
  /-- entries announced and not yet read -/
  unread : Nat := 0
  /-- completion words waiting -/
  cpl : List Word := []
  /-- the 20 signals toward the fabric, and the words to be driven on them at the coming F1 edges (R220, R221) -/
  sig : BitVec 20 := 0
  outq : List (BitVec 20) := []
  /-- the cell that is being handed over: transfer, leg, kind of `Engine.used` (R230) -/
  cell : Option (Nat × Nat × Nat) := none
  /-- legs whose cells take positions 0, 1, 2 and 3 of the running slot: number of the booking decision, transfer, leg
  (R220) -/
  plan : List (Nat × Nat × Nat) := []
  /-- the read of a ring entry under way (R222) -/
  reader : Option BankRun := none
  deriving DecidableEq, Repr

/-- An enqueue operation between its start and its decision (R223). -/
structure EnqOp where
  tid : Nat
  leg : Nat
  /-- F1 edge of its start -/
  at_ : Nat
  deriving DecidableEq, Repr

/-- QE_MIGSTAT of a view. -/
structure MigStat where
  pend : Bool := false
  qid : Nat := 0
  status : Nat := 0
  deriving DecidableEq, Repr

/-- The queue engine. -/
structure Engine where
  queues : Tbl Queue := []
  /-- submissions in order of arrival, each undecided or decided and not yet ended -/
  xfers : List Xfer := []
  nextTid : Nat := 0
  /-- operations started and not yet decided, in start order, and the F1 edge after that of the last start (R223) -/
  ops : List EnqOp := []
  started : Nat := 0
  /-- number of the next decision that books (R231) -/
  nextSeq : Nat := 0
  /-- shaped and best-effort cells read from the cell buffer in the running slot, and the F1 edge after that of the last
  (R229) -/
  reads : Nat := 0
  readAt : Nat := 0
  fsp : Tbl Fsp := []
  mig : Tbl MigStat := []
  /-- LATE counts per partition, key 8·partition + code (Table 10-9), live and latched -/
  lateCnt : Tbl Nat := []
  lateLat : Tbl Nat := []
  /-- promised cells held at the last boundary, per partition -/
  heldLat : Tbl Nat := []
  /-- round-robin pointer over partitions of spare capacity, per egress (R231) -/
  rr : Tbl Nat := []
  /-- queue served last, per egress and partition and class: key egress·64 + 2·partition + best-effort (R231) -/
  rrq : Tbl Nat := []
  /-- cells delivered in the running slot: key egress·64 + 16·kind + partition, kind 0 promised, 1 in the
  partition's own entries, 2 in capacity that no entry holds (R231) -/
  used : Tbl Nat := []
  deriving DecidableEq, Repr

/-! ### Host interface (chapter 11) -/

/-- Ring pair states (R244, R259). -/
inductive RingState where
  | disabled
  | running
  | draining
  | error (cause : Nat)
  deriving DecidableEq, Repr

/-- A ring pair. Head and tail positions count modulo twice the ring's size (R246). -/
structure Ring where
  cfg : BitVec 192 := 0
  state : RingState := .disabled
  sqHead : Nat := 0
  sqTail : Nat := 0
  cqTail : Nat := 0
  cqHead : Nat := 0
  /-- completions reserved and not yet written (R248) -/
  reserved : Nat := 0
  /-- descriptors fetched and not yet handed over -/
  fetched : List (BitVec 256) := []
  rx : List RxBuf := []
  /-- an entry was written and not yet signalled; F1 edge of the first (R251) -/
  unsignalled : Option Nat := none
  deriving DecidableEq, Repr

/-- A completion entry waiting to be written, with the data writes that precede it (R250, R251). -/
structure Cpl where
  ring : Nat
  kind : Nat
  status : Nat
  cause : Nat
  tag : Word
  value : Nat
  aux : Nat
  /-- reservations that the entry releases -/
  release : Nat
  writes : List (Nat × List Byte)
  /-- journal records that the host takes with this entry (R397) -/
  takes : List Nat
  /-- management place that the entry frees (R329) -/
  place : Option Nat
  deriving DecidableEq, Repr

/-- What a DMA read of host memory is for (R255). -/
inductive ReadFor where
  | src (tid : Nat)
  | image (view : Nat)
  | schedule (part : Nat)
  | request (part : Nat)
  | copyUnit (part : Nat)
  deriving DecidableEq, Repr

/-- An outstanding DMA read. -/
structure HRead where
  id : Nat
  what : ReadFor
  addr : Nat
  len : Nat
  /-- bytes received so far, where they are not handed on at once -/
  got : List Byte := []
  deriving DecidableEq, Repr

/-- PCIe state of a function (R240, R253). -/
structure Fn where
  d3hot : Bool := false
  /-- Bus Master Enable; clear at reset, as PCI Express has it -/
  bme : Bool := false
  /-- MSI-X Enable and Function Mask -/
  msixEn : Bool := false
  msixFm : Bool := false
  /-- MSI-X table: message address and data by vector; vectors whose mask bit the host has cleared; pending bits -/
  msixTable : Tbl (BitVec 96) := []
  unmasked : List Nat := []
  pba : List Nat := []
  /-- BAR0/1 and BAR2/3, for a VF those of the SR-IOV capability -/
  bar0 : BitVec 64 := 0
  bar2 : BitVec 64 := 0
  /-- Max_Payload_Size and Max_Read_Request_Size in bytes, the Completion Timeout code (R238) -/
  mps : Nat := 128
  mrrs : Nat := 512
  timeout : BitVec 4 := 0
  /-- ECRC generation and checking enabled -/
  ecrcGen : Bool := false
  ecrcCheck : Bool := false
  /-- AER Uncorrectable Error Status -/
  aer : BitVec 32 := 0
  deriving DecidableEq, Repr

/-- A COPY descriptor on its partition's channel (R256, R257). -/
structure Copy where
  ring : Nat
  tag : Word
  sdev : Bool
  ddev : Bool
  len : Nat
  dst : Nat
  src : Nat
  /-- bytes written so far; `none` until the checks of R257 have passed -/
  pos : Option Nat
  /-- source data of the unit in progress, once read -/
  unitData : Option (List Byte)
  /-- the unit's accesses under way: port B, or requests at a DRAM channel with what has come back -/
  run : Option BankRun := none
  dreqs : List Nat := []
  dgot : List Byte := []
  /-- the copy ends ABORTED once the unit in progress is written (R258) -/
  abort : Bool := false
  deriving DecidableEq, Repr

/-- The host interface. -/
structure HostIf where
  rate : Nat := 0
  width : Nat := 0
  /-- HCAP in force (from the slot edge after entry to L0, R254) -/
  hcap : Nat := 0
  numVFs : Nat := 0
  fns : Tbl Fn := []
  rings : Tbl Ring := []
  /-- ring pair of the last fetch turn (R249) -/
  lastRing : Nat := 4095
  cpl : List Cpl := []
  reads : List HRead := []
  nextRead : Nat := 0
  dma : Tbl (List Copy) := []
  /-- channel that moved a unit last (R256) -/
  lastDma : Nat := 15
  deriving DecidableEq, Repr

/-! ### Segment ports and links (chapters 12 and 13) -/

/-- Segment port states (SEG_STAT). -/
inductive SegState where
  | off | csma | active | fallback
  deriving DecidableEq, Repr

/-- The last stranger (Table 12-4). -/
structure Stranger where
  mac : BitVec 48 := 0
  node : Nat := 0
  csma : Bool := false
  sys : Nat := 0
  deriving DecidableEq, Repr

/-- A segment port. -/
structure Seg where
  state : SegState := .off
  /-- node whose transmit opportunity runs (R271), 64 for none; SYSTIME at which it began, wire bytes and the ET9's own
  frames in it -/
  node : Nat := 64
  oppStart : Nat := 0
  oppBytes : Nat := 0
  oppFrames : Nat := 0
  /-- F1 edge at which the running PLCA cycle began (R282) -/
  cycleStart : Option Nat := none
  /-- F1 edge of the last valid BEACON, or of the PHY's last start -/
  lastBeacon : Nat := 0
  /-- source address of the frame that is on the medium now (R277) -/
  onMedium : Option (BitVec 48) := none
  /-- roster entries as they stood before recent commits: F1 edge of the commit, entry, contents (R270, R271) -/
  rosterLog : List (Nat × Nat × BitVec 128) := []
  /-- COORD_LOST since the last valid BEACON (R280) -/
  lost : Bool := false
  /-- counters by Table 12-4: PART 0 word j at j, PART 1 word j at 8 + j; live and latched -/
  cnt : Tbl Nat := []
  lat : Tbl Nat := []
  stranger : Stranger := {}
  /-- F1 edge at which each node was last heard or its entry committed, by node ID -/
  heard : Tbl Nat := []
  /-- node IDs that are absent -/
  absent : List Nat := []
  deriving DecidableEq, Repr

/-- Link states (Table 13-6). -/
inductive LinkState where
  | off | train | handshake | up | retrain | absent | error
  deriving DecidableEq, Repr

/-- An inbound transfer being assembled on a link (R288). -/
structure InXfer where
  qid : Nat
  hop : Nat
  bytes : List Byte
  deriving DecidableEq, Repr

/-- A Detuong link. -/
structure Link where
  state : LinkState := .off
  /-- F1 edge of the last valid SLOT block -/
  lastValid : Option Nat := none
  /-- SLOTNO of a valid SLOT block, and SYSTIME of a CTRL that could be used, received in the running slot (R286, R292) -/
  slotNo : Option Nat := none
  slotSys : Option Nat := none
  /-- what the partner last said -/
  pDevid : Nat := 0
  pState : Nat := 0
  pGmid : Nat := 0
  pHops : Nat := 0xFF
  pSys : Nat := 0
  pInc : BitVec 32 := 0
  /-- incarnation from the last handshake since reset (R298) -/
  stored : Option (BitVec 32) := none
  sentAck : Bool := false
  gotAck : Bool := false
  sendReady : Bool := false
  gotReady : Bool := false
  /-- this handshake follows an ABSENT period (R295); F1 edge at which it began -/
  afterAbsent : Bool := false
  hsStart : Nat := 0
  /-- F1 edge at which the retry timer expires (R297) -/
  retryAt : Option Nat := none
  /-- handshake complete: earliest F1 edge of the boundary, and whether it must be a hyperframe (Table 13-7) -/
  upAfter : Option (Nat × Bool) := none
  txSeq : BitVec 32 := 0
  /-- cells received since the partner's TXSEQ was last known, and that TXSEQ -/
  rxSeq : Option (BitVec 32) := none
  rxOpen : List InXfer := []
  /-- Almanac entries naming the link grant positions at admission, and act in their slots (R297, R298) -/
  grants : Bool := true
  acts : Bool := true
  rOwn : Int := 0
  delay : Int := 0
  eps : Int := 0
  epsHist : List Int := []
  /-- counters by Table R299 word j, live and latched -/
  cnt : Tbl Nat := []
  lat : Tbl Nat := []
  deriving DecidableEq, Repr

/-! ### DRAM, scrubbing, maintenance (chapter 14) -/

/-- A request at a DRAM channel (R303, R311). -/
structure DReq where
  id : Nat
  master : Nat
  part : Nat
  addr : Nat
  acc : Acc
  deriving DecidableEq, Repr

/-- A DRAM answer. -/
structure DDone where
  id : Nat
  status : Nat
  data : List Byte
  deriving DecidableEq, Repr

/-- How a 64-byte block of DRAM reads (R304, R305, R307). -/
inductive Blk where
  | unwritten
  | poison
  | good
  deriving DecidableEq, Repr

/-- A DDR5 channel. -/
structure Chan where
  ready : Bool := false
  fail : Bool := false
  gib : Nat := 0
  /-- requests per partition, oldest first, and the partition served last (R311) -/
  reqs : List DReq := []
  lastPart : Nat := 15
  /-- requests that wait outside the controller: their partition has 64 outstanding (R311) -/
  outside : List DReq := []
  /-- slot of the last refresh, and refreshes in that slot (R204) -/
  lastRefresh : Option Nat := none
  refreshes : Nat := 0
  selfRefresh : Bool := false
  deriving DecidableEq, Repr

/-- A memory scrubber (R313, R314). -/
structure Scrubber where
  pos : Nat := 0
  lag : Bool := false
  /-- F1 edge at which the pass began, and whether a visit in it came late -/
  passStart : Nat := 0
  late : Bool := false
  deriving DecidableEq, Repr

/-- The background activities that wait where Table 14-5 defers them (R322); every other deferral of the table is a
command that is not yet due. -/
inductive Activity where
  | scrub (k : Nat) (sense : List DramSense)
  /-- the repair of an active frame from its image slot (R182) -/
  | frameRepair (key : Nat)
  /-- the flash program or erase that the management request in service asks for -/
  | flash
  /-- the next quota erase (R419) -/
  | quota
  /-- the erase of the journal area's next sector (R398) -/
  | journalErase
  deriving DecidableEq, Repr

/-- DRAM, error log, scrubbers, arbiter. -/
structure Dram where
  ch0 : Chan := {}
  ch1 : Chan := {}
  data : List Host.Cell := []
  /-- blocks by o / 64; an unlisted block is unwritten, or poison in a window filled since -/
  blk : Tbl Blk := []
  /-- windows filled since reset: their unlisted blocks are poison (R304) -/
  poisonWin : List Nat := []
  done : List DDone := []
  nextId : Nat := 0
  filling : List Nat := []
  retiredPages : List Nat := []
  scr : Tbl Scrubber := []
  /-- error log FIFOs by class, oldest first, and drop counts (R315, R316) -/
  log : Tbl (List (BitVec 128)) := []
  dropped : Tbl Nat := []
  /-- COR and UE counts: key 8·partition + word of R318, live and latched -/
  errCnt : Tbl Nat := []
  errLat : Tbl Nat := []
  /-- deferred maintenance activities in arrival order (R322) -/
  deferred : List Activity := []
  deriving DecidableEq, Repr

/-! ### Processors (chapter 15) -/

/-- A management request in a place (R329, R330). -/
structure MReq where
  /-- ring pair of the descriptor; 4,096 once FLR has taken it away -/
  ring : Nat
  tag : Word
  code : Nat
  reqLen : Nat
  rspLen : Nat
  rspAddr : Nat
  reqAddr : Nat
  /-- request bytes, once read; `none` before -/
  bytes : Option (List Byte)
  /-- the request read failed -/
  failed : Bool
  /-- a flash, burn or response check that Chaty is carrying out for it -/
  working : Bool
  /-- it has ended and its DONE entry is still to be written (R329) -/
  ended : Bool
  deriving DecidableEq, Repr

/-- Chaty and its queues. -/
structure Chaty where
  places : Tbl (List MReq) := []
  /-- partition in service, and the F1 edge at which its request entered service -/
  serving : Option (Nat × Nat) := none
  lastServed : Nat := 15
  restarts : Nat := 0
  /-- running an update (true) or the ROM firmware -/
  updated : Bool := false
  /-- the stored update failed its check at reset release -/
  rom : Bool := false
  /-- firmware version running -/
  fwVer : Word := 0
  /-- update stored in the system area: version and package -/
  stored : Option (Nat × List Byte) := none
  deriving DecidableEq, Repr

/-- Hart states; HRT_STAT shows RUN and WFI as FROZEN while the user clocks are stopped (R341). -/
inductive HartState where
  | off | run | wfi | fault
  deriving DecidableEq, Repr

/-- A store waiting in the store buffer (R336). -/
structure SEntry where
  addr : BitVec 32
  bytes : List Byte
  /-- port B request number once it has been sent; a register write that waits for its record has 0 -/
  sent : Option Nat
  deriving DecidableEq, Repr

/-- What a hart waits for. -/
inductive HartWait where
  | load (rd : Nat) (bytes : Nat) (signed : Bool) (reserve : Bool) (id : Nat)
  | sc (rd : Nat) (id : Nat)
  | amo (rd : Nat) (id : Nat)
  | fetch (id : Nat)
  deriving DecidableEq, Repr

/-- An application hart (R332 to R342). -/
structure Hart where
  state : HartState := .off
  pc : BitVec 32 := 0
  x : Tbl (BitVec 32) := []
  mie : Bool := false
  mpie : Bool := false
  mtvec : BitVec 32 := 0x40000000
  mieReg : BitVec 32 := 0
  mscratch : BitVec 32 := 0
  mepc : BitVec 32 := 0
  mcause : BitVec 32 := 0
  mtval : BitVec 32 := 0
  mcycle : BitVec 64 := 0
  minstret : BitVec 64 := 0
  mtimecmp : BitVec 64 := 0xFFFFFFFFFFFFFFFF
  /-- fetched words with their addresses; `none` where the fetch faulted (R335) -/
  prefetch : List (BitVec 32 × Option (BitVec 32)) := []
  store : List SEntry := []
  reservation : Option (BitVec 32) := none
  /-- the access an instruction waits for, and its address -/
  wait : Option HartWait := none
  waitAddr : BitVec 32 := 0
  lastInt : Bool := false
  lastCode : Nat := 0
  deriving DecidableEq, Repr

/-! ### Pins and events (chapter 16) -/

/-- A pin (R344 to R353). -/
structure Pin where
  /-- external level at the pad, as the pad input register sampled it last -/
  level : Bool := false
  /-- function that owns the pad, its operand and IMODE field, in force since the last switch edge -/
  func : Nat := 0
  cfg : Word := 0
  aux : Word := 0
  /-- F1 edge before which a scheduled switch may not happen (R347) -/
  switchAfter : Option Nat := none
  /-- value and enable that functions 1, 2 and 6 drive -/
  out : Bool := false
  oe : Bool := false
  /-- value and enable that the pad keeps because the new function has not driven yet (R347) -/
  kept : Option (Bool × Bool) := none
  /-- value and enable that the pad holds through a freeze (Table 19-4) -/
  held : Option (Bool × Bool) := none
  outFifo : List (Nat × Bool × Bool) := []
  /-- F1 edge at which the head of the output FIFO became its head (R349) -/
  headAt : Nat := 0
  /-- the last change of the sampled level since low-power entry began: rising or falling (R353) -/
  edge : Option Bool := none
  inFifo : List (Nat × Bool) := []
  tlate : Bool := false
  ovf : Bool := false
  deriving DecidableEq, Repr

/-- A serial unit (R351). -/
structure Serial where
  tx : List Word := []
  rx : List Byte := []
  rxovf : Bool := false
  err : Bool := false
  /-- CS held between bytes (SPI) -/
  csHeld : Bool := false
  /-- number of the free value behind the idle levels that the manual leaves open -/
  free : Nat := 0
  deriving DecidableEq, Repr

/-- Pins, units, engines. -/
structure Pins where
  pin : Tbl Pin := []
  serial : Tbl Serial := []
  /-- pattern engines: 21 words each -/
  engine : Tbl (List Word) := []
  /-- engines whose match held at the last F1 edge -/
  matching : List Nat := []
  /-- PIN_VSTAT classes, two bits per group -/
  vstat : BitVec 32 := 0
  deriving DecidableEq, Repr

/-- The event controller (R355 to R357). -/
structure Events where
  /-- pending sources, ascending -/
  pending : List Nat := []
  /-- level sources that are active -/
  active : List Nat := []
  /-- pulses toward fabric lanes: lane and F1 edge at which its one-cycle pulse begins -/
  pulses : List (Nat × Nat) := []
  /-- by source, the F1 edge of the last rising of its pending bit or of its last EVT_RTE write, the later (R357) -/
  since : Tbl Nat := []
  /-- by source, the F8 edge at which its latest pulse on event-out pins begins; 0 before the first (R357) -/
  padPulse : Tbl Nat := []
  deriving DecidableEq, Repr

/-! ### Life cycle and debug (chapter 18) -/

/-- Life-cycle states (Table 18-1). -/
inductive LcState where
  | raw | vtest | shipped | sealed | returned | scrap | lost
  deriving DecidableEq, Repr

/-- A running OTP burn. -/
inductive Burn where
  | step (word step : Nat)
  | token (word : Nat)
  deriving DecidableEq, Repr

/-- An outstanding challenge (R386). -/
structure Challenge where
  nonce : BitVec 256
  scope : Nat
  lcState : Word
  /-- F1 edge at which it expires -/
  expires : Nat
  deriving DecidableEq, Repr

/-- Where a response came from (R388): a view's buffer, or management request DBG_RESP. -/
inductive RspSrc where
  | view (v : View)
  | mgmt
  deriving DecidableEq, Repr

/-- DBG_STAT of a view. -/
structure DbgStat where
  resp : Nat := 0
  cause : Nat := 0
  deriving DecidableEq, Repr

/-- OTP, keys, authorisation. -/
structure LifeCycle where
  /-- step words and token words of OTP (R377, R389) -/
  steps : Tbl Word := []
  tokens : Tbl Word := []
  state : LcState := .raw
  burn : Option Burn := none
  /-- the RETURNED erase is incomplete -/
  wipe : Bool := false
  /-- AES slots 0 to 3 and the signing key at 4 -/
  keys : Tbl (List Byte) := []
  /-- scopes in force (Table 18-4) -/
  grants : Nat := 0
  /-- DBG_CTL.OPEN -/
  opened : Bool := false
  chal : Option Challenge := none
  /-- response buffers by view -/
  rbuf : Tbl (List Word) := []
  stat : Tbl DbgStat := []
  /-- responses arriving in this CLK_M cycle, and the one being checked with the challenge it consumed -/
  intake : List (RspSrc × List Byte) := []
  checking : Option (RspSrc × List Byte × Challenge) := none
  /-- an accepted response on its way through the journal, and then through its token burn: source, scope -/
  granting : Option (RspSrc × Nat) := none
  deriving DecidableEq, Repr

/-! ### Capture (chapter 19) -/

/-- A capture scope's progress: key 0 to 15 for partitions, 16 for the device. -/
inductive Cap where
  | armed (after : Nat) (at_ : Option Nat)
  | frozen (f : Nat)
  | resuming (f : Nat) (after : Nat)
  deriving DecidableEq, Repr

/-- Capture state. -/
structure Capture where
  scopes : Tbl Cap := []
  /-- SYSTIME readings of the last f and r per scope -/
  fTime : Tbl Nat := []
  rTime : Tbl Nat := []
  deriving DecidableEq, Repr

/-! ### Flash (chapter 20) -/

/-- A program or erase of the flash program path (R412, R413). -/
inductive FlashOp where
  /-- a sector erase: flash sector, sectors still to follow in a block erase, the partition whose request asked for it,
  the user block of a quota erase; with neither, an erase of the journal area -/
  | erase (sector : Nat) (more : Nat) (forPart : Option Nat) (quota : Option Nat)
  deriving DecidableEq, Repr

/-- The soundboard flash array. -/
structure Flash where
  /-- bytes by flash offset; an unlisted byte is erased, 0xFF -/
  data : List Host.Cell := []
  /-- words that read as uncorrectable, by flash offset / 2 -/
  badWords : List Nat := []
  /-- status word of each sector; an unlisted one is unprogrammed, 0xFFFF (R414) -/
  status : Tbl Word := []
  factoryBad : List Nat := []
  runtimeBad : List Nat := []
  bbFullSeen : Bool := false
  op : Option FlashOp := none
  /-- F1 edge from which the running time of the erase since start or resume counts, and F1 cycles already run -/
  since : Nat := 0
  ran : Nat := 0
  suspended : Bool := false
  /-- a reset or supply fault interrupted an erase or a program -/
  aborted : Bool := false
  /-- user blocks awaiting their quota erase, in order -/
  pendingBlocks : List Nat := []
  /-- partition that last held a user block (R419) -/
  lastOwner : Tbl Nat := []
  /-- journal area (R398): sector in use, its records (128 when it is full or has failed), the sector prepared next, and
  whether that one is erased -/
  curSector : Nat := 0
  curUsed : Nat := 0
  nextSector : Nat := 1
  nextReady : Bool := false
  /-- seals of the journal area's sectors (R398) -/
  seals : Tbl (List Byte) := []
  /-- highest SEQ in the journal area (R399) -/
  topSeq : Option Nat := none
  /-- incarnation number in the system area (R298) -/
  inc : BitVec 32 := 0
  deriving DecidableEq, Repr

/-! ### What leaves the part -/

/-- What the block puts on its buses and balls, newest last: the model's own record of its outputs. -/
inductive Out where
  | hostWrite (addr : Nat) (bytes : List Byte)
  /-- a message of a function's vector: data and address as its table entry has them -/
  | msix (fn vec : Nat) (msg : BitVec 96)
  | completerAbort (v : View) (off : Nat)
  | readData (v : View) (off : Nat) (data : Word)
  | miso (bytes : List Byte)
  /-- SIDE_MISO returns 0xFF on every filler byte, as many as the access in progress takes (R50) -/
  | misoWait
  /-- TDO while an instruction is shifted in: what Capture-IR loaded (R51) -/
  | tdo (captured : BitVec 8)
  | segFrame (port : Nat) (bytes : List Byte)
  | segBeacon (port : Nat)
  | linkCell (k : Nat) (map : BitVec 56) (bytes : List Byte)
  | linkHs (k : Nat) (hs : Nat) (inc : BitVec 32)
  | linkSlot (k : Nat) (slot : BitVec 56) (ctrl : BitVec 256)
  | fspCell (k : Nat) (tag : Word) (prom : Bool) (bytes : List Byte)
  | serialByte (u : Nat) (word : Word)
  | toChaty (src : Nat)
  /-- Chaty receives a source for its own duties, whatever its route (R356) -/
  | chatyDuty (src : Nat)
  | refresh (mc : Nat)
  | avsWrite (mv : Nat)
  | smbAck
  deriving DecidableEq, Repr

/-! ### The whole -/

/-- The ET9 and its queue of waiting commands. -/
structure State where
  mode : Mode := .m1
  /-- SYS_MODE.LAST -/
  last : Mode := .m0
  /-- F1 edge at which M5 was last entered from outside M5 to M7 (R265) -/
  runSince : Nat := 0
  clk : Clock := {}
  pwr : Power := {}
  /-- device-scope registers by BAR0 offset, where they differ from reset -/
  regs : Tbl Word := []
  /-- per-view registers, key view·2^20 + offset -/
  vregs : Tbl Word := []
  /-- per-partition registers, key partition·2^20 + offset -/
  pregs : Tbl Word := []
  /-- holding registers, key view·2^20 + offset of _HI (R44) -/
  hold : Tbl Word := []
  framed : List FramedWrite := []
  mbx : Tbl Mailbox := []
  side : SidePort := {}
  tap : Tap := {}
  jrn : Journal := {}
  fab : Fabric := {}
  bank : Banks := {}
  ldr : Loader := {}
  swp : Swaps := {}
  alm : Almanac := {}
  qe : Engine := {}
  host : HostIf := {}
  seg : Tbl Seg := []
  /-- roster entries, key 64·port + entry (R269) -/
  roster : Tbl (BitVec 128) := []
  link : Tbl Link := []
  timeSrc : Option Nat := none
  dram : Dram := {}
  mgt : Chaty := {}
  hart0 : Hart := {}
  hart1 : Hart := {}
  hart2 : Hart := {}
  hart3 : Hart := {}
  pins : Pins := {}
  ev : Events := {}
  lc : LifeCycle := {}
  cap : Capture := {}
  flash : Flash := {}
  /-- outputs so far: the model's own record -/
  outs : List Out := []
  /-- index of the next free value (R77, R105, R305): the model's own counter -/
  freeCtr : Nat := 0
  /-- the commands that wait, first in, first out -/
  pending : List Instr := []
  deriving DecidableEq, Repr

/-- Why a step stops with a fault. -/
inductive Fault where
  /-- Raised by the side-port WRITE, READ and STREAM when the header's offset bits [23:20] or [1:0] are not zero:
  R49 obliges the controller to send zeros and gives no effect for anything else. Safe: nothing is done. -/
  | sideHeader
  deriving DecidableEq, Repr

/-- Why a step is refused. -/
inductive Refusal where
  /-- Raised by `exec` for a command whose meaning is not written yet, by its mnemonic. Safe. -/
  | notModelled (mnemonic : String)
  deriving DecidableEq, Repr

/-- The ET9 right after power-on reset: mode M1, every resource at P0, nothing configured. -/
def State.reset : State := {}

end Sys2Proof.Machine
end

