-- ==== Sys2Proof/Machine/Table.lean ====
section
/-! DEFINITION. The sparse tables of the state: reads, writes that keep the canonical form, and runs of bytes in a
table of bytes. -/

namespace Sys2Proof.Machine

/-- What a table holds at a key; `d` is what an unlisted key reads as. -/
def tget {β : Type} (d : β) : Tbl β → Nat → β
  | [], _ => d
  | (k, v) :: t, n => if n = k then v else tget d t n

/-- A table without a key. -/
def tdel {β : Type} (t : Tbl β) (n : Nat) : Tbl β := t.filter fun e => e.1 != n

/-- An entry put before the first higher key. -/
def tput {β : Type} : Tbl β → Nat → β → Tbl β
  | [], n, v => [(n, v)]
  | (k, w) :: t, n, v => if n < k then (n, v) :: (k, w) :: t else (k, w) :: tput t n v

/-- A table with the value at a key replaced: keys stay strictly rising, and an entry equal to the default goes. -/
def tset {β : Type} [DecidableEq β] (d : β) (t : Tbl β) (n : Nat) (v : β) : Tbl β :=
  if v = d then tdel t n else tput (tdel t n) n v

/-- A table with the value at a key changed. -/
def tmod {β : Type} [DecidableEq β] (d : β) (t : Tbl β) (n : Nat) (f : β → β) : Tbl β :=
  tset d t n (f (tget d t n))

/-- Every key of a table lies above a bound, the keys rise strictly, and no entry equals the default. -/
def tableFrom {β : Type} [DecidableEq β] (d : β) : Option Nat → Tbl β → Bool
  | _, [] => true
  | lo, (k, v) :: t =>
    (match lo with
      | none => true
      | some l => decide (l < k)) && decide (v ≠ d) && tableFrom d (some k) t

/-- The canonical form of a table. -/
def Table.wf {β : Type} [DecidableEq β] (d : β) (t : Tbl β) : Bool := tableFrom d none t

/-- A byte memory in its canonical form: addresses strictly rising, no entry equal to what an unlisted address
reads as (`d`). -/
def Memory.wf (d : Byte) (m : List Host.Cell) : Bool := Table.wf d m

/-- `n` bytes of a memory from an address. -/
def getBytes (d : Byte) (m : List Host.Cell) (a : Nat) : Nat → List Byte
  | 0 => []
  | n + 1 => tget d m a :: getBytes d m (a + 1) n

/-- A memory with bytes written from an address. -/
def setBytes (d : Byte) : List Host.Cell → Nat → List Byte → List Host.Cell
  | m, _, [] => m
  | m, a, b :: bs => setBytes d (tset d m a b) (a + 1) bs

/-- One value at every key of a list. -/
def tfill {β : Type} [DecidableEq β] (d : β) (v : β) : Tbl β → List Nat → Tbl β
  | t, [] => t
  | t, n :: ns => tfill d v (tset d t n v) ns

/-- The entries of a table that a test on the key keeps. -/
def tkeep {β : Type} (p : Nat → Bool) (t : Tbl β) : Tbl β := t.filter fun e => p e.1

/-- A list of keys as a set: strictly rising. -/
def sins (n : Nat) : List Nat → List Nat
  | [] => [n]
  | k :: t => if n < k then n :: k :: t else if n = k then k :: t else k :: sins n t

/-- A set without an element. -/
def sdel (n : Nat) (l : List Nat) : List Nat := l.filter (· != n)

end Sys2Proof.Machine
end

