-- ==== Sys2Proof/Machine/Ops.lean ====
section
/-! DEFINITION. The named operations every command shares: status codes, views, registers, time, events, free values,
outputs, and the journal's intake. -/

namespace Sys2Proof.Machine

/-- The answer of a command in this model. -/
abbrev Result := Host.Outcome State Fault Refusal

/-! ### Status codes (Table 2-4) -/

abbrev stOk : Nat := 0x00
abbrev stRefused : Nat := 0x01
abbrev stBusy : Nat := 0x02
abbrev stDenied : Nat := 0x03
abbrev stLocked : Nat := 0x04
abbrev stInvalid : Nat := 0x05
abbrev stLate : Nat := 0x06
abbrev stPartial : Nat := 0x07
abbrev stUe : Nat := 0x08
abbrev stAbsent : Nat := 0x09
abbrev stDrained : Nat := 0x0A
abbrev stJournalFull : Nat := 0x0B
abbrev stTimeout : Nat := 0x0C
abbrev stAborted : Nat := 0x0D

/-! ### Modes (Table 1-3) -/

/-- The code of a mode in SYS_MODE. -/
def Mode.code : Mode → Nat
  | .m0 => 0 | .m1 => 1 | .m2 => 2 | .m3 => 3 | .m4 => 4 | .m5 => 5
  | .m6 => 6 | .m7 => 7 | .m8 => 8 | .m9 => 9 | .m10 => 10 | .m11 => 11

/-- PCIe PF0, side port and JTAG are up (Table 1-3); M11 answers with identity only. -/
def Mode.busUp : Mode → Bool
  | .m0 | .m1 | .m8 | .m9 => false
  | _ => true

/-- SYSTIME counts (R185): M2 to M7 and M10. -/
def Mode.timeRuns : Mode → Bool
  | .m2 | .m3 | .m4 | .m5 | .m6 | .m7 | .m10 => true
  | _ => false

/-! ### Views (R45, Table 19-2) -/

/-- The code of a view: its ORIGIN index (Table 19-2). -/
def viewCode : View → Nat
  | .pf0 => 0
  | .vf n => n
  | .hart n => 0x10 + n
  | .side => 0x14
  | .jtag => 0x15
  | .chaty => 0x16

/-- The word of a device-scope register: what the table lists, or the given reset value. -/
def dev (s : State) (off : Nat) (d : Word) : Word := tget d s.regs off

/-- The partition of a view: a hart's is its owner's (R26, R45); the side port and JTAG act for P0 (R157). -/
def viewPart (s : State) : View → Nat
  | .pf0 => 0
  | .vf n => n
  | .hart n => (dev s (0xF0000 + 4 * n) 0).toNat % 16
  | .side | .jtag | .chaty => 0

/-- The key of a view's word at an offset. -/
def viewKey (c off : Nat) : Nat := c * 0x100000 + off

/-- A word of the view's own registers. -/
def vw (s : State) (v : View) (off : Nat) (d : Word) : Word := tget d s.vregs (viewKey (viewCode v) off)

/-- A word of a partition's own registers. -/
def pw (s : State) (p off : Nat) (d : Word) : Word := tget d s.pregs (viewKey p off)

/-- A holding register (R44): zero at reset. -/
def holding (s : State) (v : View) (off : Nat) : Word := tget 0 s.hold (viewKey (viewCode v) off)

/-- s with a device-scope word. -/
def setDev (s : State) (off : Nat) (d v : Word) : State := { s with regs := tset d s.regs off v }

/-- s with a word of a view. -/
def setVw (s : State) (v : View) (off : Nat) (d x : Word) : State :=
  { s with vregs := tset d s.vregs (viewKey (viewCode v) off) x }

/-- s with a word of a partition. -/
def setPw (s : State) (p off : Nat) (d x : Word) : State :=
  { s with pregs := tset d s.pregs (viewKey p off) x }

/-- SYS_REGERR of a view takes a status (R35, R39, R43, R48): LAST, and ABT, LCK or JFL. -/
def regErr (s : State) (v : View) (st : Nat) : State :=
  let old := (vw s v 0x8 0).toNat
  let flag := if st = stAborted then 0x8000 else if st = stLocked then 0x4000
    else if st = stJournalFull then 0x2000 else 0
  setVw s v 0x8 0 (BitVec.ofNat 16 (Nat.lor (Nat.lor (old / 256 * 256) flag) st))

/-! ### Time (R189, R193) -/

/-- The SYSTIME reading at the current F1 cycle (R189). -/
def sysNow (s : State) : Nat := s.clk.systime + min (5 * s.clk.k / 3) 999

/-- TIM_FLEN. -/
def flen (s : State) : Nat := (dev s 0x50008 0x00FA).toNat

/-- HLEN = HLENM1 + 1. -/
def hlen (s : State) : Nat := (dev s 0x5000C 0).toNat + 1

/-- The frame number before the modulo (R193). -/
def frameRaw (s : State) (t : Nat) : Nat := t / (flen s * 1000)

/-- The current frame number (R193). -/
def frameNo (s : State) : Nat := frameRaw s s.clk.systime % 2 ^ 32

/-- A slot edge at this SYSTIME is a frame boundary (R193). -/
def isBoundary (s : State) (t : Nat) : Bool := t % (flen s * 1000) == 0

/-- SYSTIME of the first frame boundary at or after a time. -/
def boundaryFrom (s : State) (t : Nat) : Nat := cdiv t (flen s * 1000) * (flen s * 1000)

/-- SYSTIME of the next frame boundary, later than now. -/
def nextBoundary (s : State) : Nat := (sysNow s / (flen s * 1000) + 1) * (flen s * 1000)

/-- A FRAME field names a boundary still to come (R195). -/
def namesFuture (s : State) (frame : Nat) : Bool :=
  let d := (frame + 2 ^ 32 - frameNo s % 2 ^ 32) % 2 ^ 32
  decide (1 ≤ d) && decide (d < 2 ^ 31)

/-- SYSTIME of the boundary a FRAME field names, counted from the current frame (R195). -/
def boundaryOf (s : State) (frame : Nat) : Nat :=
  (frameRaw s s.clk.systime + (frame + 2 ^ 32 - frameNo s % 2 ^ 32) % 2 ^ 32) * (flen s * 1000)

/-- TIM_CTL active. -/
def timCtl (s : State) : Nat := (dev s 0x50000 0).toNat

/-- TIM_CTL.RUN active (R198). -/
def runActive (s : State) : Bool := bit (timCtl s) 15

/-- TIM_CTL as it will stand at the next frame boundary (R198): its pending value, else its active value. -/
def timCtlNext (s : State) : Nat :=
  match s.framed.find? (fun w => w.off == 0x50000) with
  | some w => w.val.toNat
  | none => timCtl s

/-- RUN active or pending (R190, R198). -/
def runAny (s : State) : Bool := runActive s || bit (timCtlNext s) 15

/-- A follower (R187). -/
def isFollower (s : State) : Bool := fld (timCtl s) 14 13 == 2

/-! ### Free values and outputs -/

/-- The number of a new free value, and s after the draw. -/
def draw (s : State) : Nat × State := (s.freeCtr, { s with freeCtr := s.freeCtr + 1 })

/-- s after something left the part. -/
def emit (s : State) (o : Out) : State := { s with outs := s.outs ++ [o] }

/-- A port access that was in progress ends with a status (R50, R52). -/
def endAccess (a : PortAccess) (st : Nat) (data : Word) : PortAccess :=
  { a with inProgress := false, status := st, data := data }

/-! ### Events (R355, R357) -/

/-- Sources that Table 16-6 and the chapters' lists keep reserved: never raised (R355). -/
def reservedSource (n : Nat) : Bool :=
  decide (1225 ≤ n ∧ n < 1232) || decide (1620 ≤ n ∧ n < 1648) || decide (1662 ≤ n ∧ n < 1712)
    || decide (1716 ≤ n ∧ n < 1744) || decide (1782 ≤ n ∧ n < 1808) || decide (1811 ≤ n ∧ n < 1840)
    || decide (1845 ≤ n ∧ n < 1856) || decide (1861 ≤ n ∧ n < 1872) || decide (1881 ≤ n)

/-- PIN_CFG and PIN_AUX in force at a pin. -/
def pinOf (s : State) (p : Nat) : Pin := tget {} s.pins.pin p

/-- The F8 edge at which a rising at F1 edge f begins a pulse on the event-out pins, where the latest pulse began at b
(0: none yet): a rising within a pulse merges, and one F8 cycle of 0 follows each pulse (R357). -/
def pulseFrom (b f : Nat) : Nat :=
  let next := (f / 8 + 1) * 8
  if b = 0 then next else if f < b + 8 then b else max next (b + 16)

/-- A pending bit rises (R357): its event-out pins pulse, and Chaty receives the sources of its duties (R356). -/
def riseEv (s : State) (src : Nat) : State :=
  let s := { s with ev := { s.ev with
    pending := sins src s.ev.pending
    since := tset 0 s.ev.since src s.clk.f1
    padPulse := tset 0 s.ev.padPulse src (pulseFrom (tget 0 s.ev.padPulse src) s.clk.f1) } }
  if 1808 ≤ src ∧ src < 1872 then emit s (.chatyDuty src) else s

/-- A raise of an event source sets its pending bit (R357). -/
def raiseEv (s : State) (src : Nat) : State :=
  if reservedSource src then s
  else if s.ev.pending.contains src then s
  else riseEv s src

/-- A clear of a pending bit; an active level source sets it again (R357). -/
def clearEv (s : State) (src : Nat) : State :=
  if s.ev.active.contains src then
    if s.ev.pending.contains src then riseEv s src else s
  else { s with ev := { s.ev with pending := sdel src s.ev.pending } }

/-- A source drives 1 on its event-out pins now (Table 16-2, FUNC 8). -/
def evPulse (s : State) (src : Nat) : Bool :=
  let b := tget 0 s.ev.padPulse src
  b != 0 && decide (b ≤ s.clk.f1) && decide (s.clk.f1 < b + 8)

/-- n F1 cycles have passed since an F1 edge: what durations are counted in, so that a load or a step of SYSTIME (R190,
R292) neither shortens nor lengthens them. -/
def passed (s : State) (since n : Nat) : Bool := decide (since + n ≤ s.clk.f1)

/-- A level source becomes active or inactive (R357). -/
def levelEv (s : State) (src : Nat) (on : Bool) : State :=
  if reservedSource src then s
  else if on then raiseEv { s with ev := { s.ev with active := sins src s.ev.active } } src
  else { s with ev := { s.ev with active := sdel src s.ev.active } }

/-! ### Partitions and owners (R22 to R26) -/

/-- PRT_CTL.LOCK. -/
def locked (s : State) : Bool := bit (dev s 0x20000 0).toNat 15

/-- An application hart. -/
def hartOf (s : State) (h : Nat) : Hart :=
  match h with
  | 0 => s.hart0
  | 1 => s.hart1
  | 2 => s.hart2
  | _ => s.hart3

/-- s with a hart changed. -/
def setHart (s : State) (h : Nat) (x : Hart) : State :=
  match h with
  | 0 => { s with hart0 := x }
  | 1 => { s with hart1 := x }
  | 2 => { s with hart2 := x }
  | _ => { s with hart3 := x }

/-- PRT_EN bit of a partition; P0 is always enabled (R22), and under an ET7 personality it alone (R31). -/
def enabled (s : State) (p : Nat) : Bool := p == 0 || (s.fab.pers == 0 && bit (dev s 0x20004 1).toNat p)

/-- The partition of a region, PRT_RGN. -/
def regionPart (s : State) (r : Nat) : Nat :=
  fld (dev s (0x20100 + 4 * (r / 4)) 0).toNat (4 * (r % 4) + 3) (4 * (r % 4))

/-- The region of a bank: bank n is tile 12 + n mod 4 of region n / 4 (R7, R112). -/
def bankRegion (b : Nat) : Nat := b / 4

/-- The handover fill of a bank, if one runs (R129). -/
def bankFill (s : State) (b : Nat) : Option BFill := tget none s.bank.fill b

/-- The partition of a bank is its region's (R23); the old one until a crossing fill ends (R130). -/
def bankPart (s : State) (b : Nat) : Nat :=
  match bankFill s b with
  | some f => f.oldPart.getD (regionPart s (bankRegion b))
  | none => regionPart s (bankRegion b)

/-- The partition of a pin, PIN_OWN. -/
def pinPart (s : State) (p : Nat) : Nat :=
  fld (dev s (0xA0000 + 4 * (p / 4)) 0).toNat (4 * (p % 4) + 3) (4 * (p % 4))

/-- The partition of a serial unit or a pattern engine, PIN_UOWN. -/
def unitPart (s : State) (u : Nat) : Nat :=
  fld (dev s (0xA0100 + 4 * (u / 4)) 0).toNat (4 * (u % 4) + 3) (4 * (u % 4))

/-- The partition of an FSP, QE_FSPOWN (R431). -/
def fspPart (s : State) (f : Nat) : Nat :=
  fld (dev s (0x41800 + 4 * (f / 4)) 0).toNat (4 * (f % 4) + 3) (4 * (f % 4))

/-- The partition of a segment port, SEG_OWN. -/
def segPart (s : State) (k : Nat) : Nat := (dev s (0x60000 + 4 * k) 0).toNat % 16

/-- The partition of a hart, HRT_OWN. -/
def hartPart (s : State) (h : Nat) : Nat := (dev s (0xF0000 + 4 * h) 0).toNat % 16

/-- The partition of a DRAM window, MEM_WIN. -/
def windowPart (s : State) (w : Nat) : Nat := (dev s (0x80000 + 4 * w) 0).toNat % 16

/-- The function of a ring pair (R241): PF0 owns ring pairs 0 to 255, VFn those from 256n. -/
def ringPart (g : Nat) : Nat := g / 256

/-- The owner field of an event source in EVT_OWN (R355). -/
def evtOwnField (s : State) (n : Nat) : Nat :=
  fld (dev s (0xB0000 + 4 * (n / 4)) 0).toNat (4 * (n % 4) + 3) (4 * (n % 4))

/-- The owner of an event source where Table 16-6 fixes it; `none` where EVT_OWN holds it. A reserved source
belongs to P0 (R355). -/
def evtOwnFixed (s : State) (n : Nat) : Option Nat :=
  if reservedSource n then some 0
  else if n < 640 then none
  else if n < 1024 then some (regionPart s (n - 640))
  else if n < 1216 then some (segPart s (n - 1024))
  else if n < 1232 then none
  else if n < 1488 then some (pinPart s (n - 1232))
  else if n < 1520 then some (unitPart s (n - 1488 + 32))
  else if n < 1584 then some ((n - 1520) % 16)
  else if n < 1616 then some ((n - 1584) % 16)
  else if n < 1808 then none
  else if n < 1872 then some 0
  else if n < 1880 then some (hartPart s ((n - 1872) % 4))
  else none

/-- The owner of an event source (Table 16-6). -/
def evtOwner (s : State) (n : Nat) : Nat :=
  match evtOwnFixed s n with
  | some p => p
  | none => evtOwnField s n

/-! ### Capture scopes (R19, R20, R400) -/

/-- A capture scope has reached its freeze edge and not its resume edge. -/
def Cap.isFrozen : Cap → Bool
  | .armed _ _ => false
  | _ => true

/-- The progress of a scope, 0 to 15 for partitions and 16 for the device. -/
def capOf (s : State) (scope : Nat) : Option Cap := tget none (s.cap.scopes.map fun e => (e.1, some e.2)) scope

/-- A partition's user clocks are frozen by its own scope or the device's (R401). -/
def frozen (s : State) (p : Nat) : Bool :=
  (match capOf s p with | some c => c.isFrozen | none => false)
    || (match capOf s 16 with | some c => c.isFrozen | none => false)

/-- Any scope is armed or frozen (R19). -/
def anyCapture (s : State) : Bool := !s.cap.scopes.isEmpty

/-- Low-power entry has taken a step of Table 17-3. -/
def entryPast (s : State) (n : Nat) : Bool := s.pwr.entry.isSome && decide (n ≤ s.pwr.entryStep)

/-- The user clocks of every partition are stopped by low-power entry (Table 17-3, step 2). -/
def gated (s : State) : Bool := entryPast s 2

/-- A partition's user clocks run: M5, the partition enabled and not frozen, no low-power entry past its step 2 (Table
1-3, R20, R24, R364). -/
def userRuns (s : State) (p : Nat) : Bool := s.mode == .m5 && enabled s p && !frozen s p && !gated s

/-- No hart that runs is outside WFI (R363). -/
def hartsWait (s : State) : Bool := (List.range 4).all fun h => (hartOf s h).state != .run

/-- A request waits, and every hart that runs is in WFI (R363). -/
def entryDue (s : State) : Bool := s.pwr.waiting && s.mode == .m5 && hartsWait s

/-- SYS_MODE.PHALT (R20). -/
def phalt (s : State) : Bool := s.cap.scopes.any fun e => e.1 != 16 && e.2.isFrozen

/-- A device-scope debug session is active (R385). -/
def session (s : State) : Bool := s.lc.opened || bit s.lc.grants 0

/-- M5 to M7. -/
def Mode.inRun (m : Mode) : Bool := m == .m5 || m == .m6 || m == .m7

/-- s in another mode: SYS_MODE.LAST takes the mode left; after a wake, M5 raises WAKE (R367). -/
def setMode (s : State) (m : Mode) : State :=
  let t := { s with mode := m, last := s.mode, runSince := if m.inRun && !s.mode.inRun then s.clk.f1 else s.runSince }
  if m == .m5 && s.pwr.wakeDue then raiseEv { t with pwr := { t.pwr with wakeDue := false } } 1808 else t

/-! ### The journal's intake (R394, R395) -/

/-- Journal shares, JRN_SHARE. -/
def jrnShare (s : State) (p : Nat) : Nat :=
  (dev s (0xE0100 + 4 * p) (if p = 0 then 0x1FC0 else 0)).toNat

/-- JRN_CTL. -/
def jrnCtl (s : State) : Nat := (dev s 0xE0000 0x400A).toNat

/-- A sink is enabled (R396). -/
def sinkOn (s : State) : Bool := bit (jrnCtl s) 15 || bit (jrnCtl s) 14

/-- Places of a partition's share that its records take, and those held for ending records (R396). -/
def shareUsed (s : State) (p : Nat) : Nat :=
  (s.jrn.ring.filter fun r => r.part == p && !r.reserved).length + tget 0 s.jrn.heldPlaces p

/-- Every enabled sink has taken the record (R396). -/
def RingRec.takenBy (r : RingRec) (ctl : Nat) : Bool := (!bit ctl 15 || r.hostTaken) && (!bit ctl 14 || r.flashTaken)

/-- The shares of more than 0 places that are full. -/
def fullShares (s : State) : List Nat :=
  (List.range 16).filter fun p => decide (0 < jrnShare s p) && decide (jrnShare s p ≤ shareUsed s p)

/-- Places free once every enabled sink has taken their records (R396). -/
def sweepRing (s : State) : State :=
  if sinkOn s then
    let s := { s with jrn := { s.jrn with ring := s.jrn.ring.filter fun r => !r.takenBy (jrnCtl s) } }
    { s with jrn := { s.jrn with full := s.jrn.full.filter fun p => (fullShares s).contains p } }
  else s

/-- Two records fold: same ORIGIN and same KIND [14:0] (R395). -/
def JRec.folds (a b : JRec) : Bool :=
  a.cls == b.cls && a.part == b.part && a.idx == b.idx && a.kind == b.kind && a.status == b.status

/-- The youngest intake entry with a further change folded into it: OBJECT and NEW of the latest change, SYSTIME of
the first (R395). -/
def JEntry.fold (e n : JEntry) : JEntry :=
  { e with
    record := { e.record with obj := n.record.obj, new := n.record.new }
    count := e.count + n.count
    changes := e.changes ++ n.changes }

/-- The intake's list with its last entry folded. -/
def foldLast (n : JEntry) : List JEntry → List JEntry
  | [] => []
  | [e] => [e.fold n]
  | e :: es => e :: foldLast n es

/-- A change presents its record to the intake (R394, R395): a place, or a fold into the youngest entry when the
intake is full and nothing waits, or the queue of waiting records. -/
def presentEntry (e : JEntry) (j : Journal) : Journal :=
  if j.waiting.isEmpty && decide (j.intake.length < 8) then { j with intake := j.intake ++ [e] }
  else if j.waiting.isEmpty then
    match j.intake.getLast? with
    | some y =>
      if y.record.folds e.record && decide (y.count + e.count < 2 ^ 32) then
        { j with intake := foldLast e j.intake, live := { j.live with folds := sat 16 (j.live.folds + 1) } }
      else { j with waiting := j.waiting ++ [e] }
    | none => { j with intake := [e] }
  else { j with waiting := j.waiting ++ [e] }

/-- s after a change presented its record. -/
def journal (s : State) (r : JRec) (refusable : Bool) (need : Nat) (c : Change) : State :=
  let e : JEntry := ⟨{ r with sys := sysNow s }, 1, refusable, need, [c]⟩
  { s with jrn := presentEntry e s.jrn }

/-- A record of a register access by a view (R392). -/
def viewRec (s : State) (v : View) (kind st obj old new : Nat) : JRec :=
  { sys := 0, cls := 0, part := viewPart s v, idx := (viewCode v), kind := kind, status := st, obj := obj, old := old
    new := new }

/-- A record of an engine (R392). -/
def engRec (cls part idx kind st obj old new : Nat) : JRec :=
  { sys := 0, cls := cls, part := part, idx := idx, kind := kind, status := st, obj := obj, old := old, new := new }

/-! ### Completions toward the host (R250) -/

/-- Kinds of a completion entry (Table 11-6). -/
abbrev kDone : Nat := 0
abbrev kAdmit : Nat := 1
abbrev kFinal : Nat := 2
abbrev kRx : Nat := 3
abbrev kJrn : Nat := 4

/-- The entry of a ring pair. -/
def ringOf (s : State) (g : Nat) : Ring := tget {} s.host.rings g

/-- s with a ring pair changed. -/
def setRing (s : State) (g : Nat) (r : Ring) : State :=
  { s with host := { s.host with rings := tset {} s.host.rings g r } }

/-- The number that stands for a ring pair which FLR has taken away: nothing is written to it (R260). -/
abbrev deadRing : Nat := 4096

/-- s with a completion entry queued behind the others (R250). -/
def queueCpl (s : State) (c : Cpl) : State :=
  if c.ring < deadRing then { s with host := { s.host with cpl := s.host.cpl ++ [c] } } else s

/-- The function of a view's ring pairs exists and is enabled: under an ET7 personality VFs are not offered (R31, R240). -/
def functionUp (s : State) (fn : Nat) : Bool :=
  s.host.rate != 0 && (fn == 0 || (s.fab.pers == 0 && decide (fn ≤ s.host.numVFs) && enabled s fn))

/-- A message of a function's vector can be sent now: D0, Bus Master Enable, MSI-X Enable, neither mask (R251). -/
def msixOpen (s : State) (fn vec : Nat) : Bool :=
  let f := tget {} s.host.fns fn
  functionUp s fn && !f.d3hot && f.bme && f.msixEn && !f.msixFm && f.unmasked.contains vec

/-- A function's MSI-X message: sent, or pending (R251). -/
def sendMsix (s : State) (fn vec : Nat) : State :=
  let f := tget {} s.host.fns fn
  if msixOpen s fn vec then emit s (.msix fn vec (tget 0 f.msixTable vec))
  else { s with host := { s.host with fns := tset {} s.host.fns fn { f with pba := sins vec f.pba } } }

end Sys2Proof.Machine
end

