-- ==== Sys2Proof/Machine/RegMap.lean ====
section
/-! DEFINITION. The register map: every register of chapters 1 to 20 with its offset, access class, journaling, view
and reset value (R34 to R45, R53), and what each view may reach. -/

namespace Sys2Proof.Machine

/-- The registers, arrays of equal registers under one name. -/
inductive Reg where
  | sysId | sysMode | sysRegerr | sysFwctl | mbxSelHi | mbxSelLo | mbxCtl | mbxD | sysHstat | sysRcfg | sysRsel
  | cfgLdcmd | cfgLdstat | cfgFadrHi | cfgFadrLo | cfgFdat | cfgFcrc | cfgImgIdHi | cfgImgIdLo | cfgKsel |
  cfgPers | cfgFailadrHi | cfgFailadrLo | cfgBootstat | cfgCgsel | cfgSwpfrmHi | cfgSwpfrmLo | cfgSwpcmd |
  cfgCgstat | cfgScrctl | cfgScrstat | prtCtl | prtEn | prtRgn | brgGate | brgRej | bnkOwn | bnkTdm | bnkWwc |
  bnkRetire | qeAdmCtl | qeQrange | qePquota | qeFspshare | qeSpill | qeQcfg | qeQselHi | qeQselLo | qeMigegr |
  qeMigalw | qeMigrateHi | qeMigrateLo | qeMigstat | qeSquota | qeFspb | qeFspr | qeFspown | timCtl | timStat |
  timFlen | timHlen | timLdsecHi | timLdsecLo | timArange | timShare | timPgcmd | timPgfrmHi | timPgfrmLo |
  timPgstat | timPgfailHi | timPgfailLo | timAent | timAidxHi | timAidxLo | segOwn | segCtl | segPlca | segMaxb
  | segStat | segAbs | segEvt | segRent | segRsel | lnkDevid | lnkGmid | lnkRetry | lnkIncHi | lnkIncLo | lnkCtl
  | lnkAsym | lnkStat | lnkEvt | memWin | memStat0 | memStat1 | memScrctl | memScrpassHi | memScrpassLo |
  memLogpop | memRetireHi | memRetireLo | memRetcnt | memMaint | flsUqHi | flsUqLo | flsStat | pinOwn | pinUown
  | pinCfg | pinAux | pinOut | pinSet | pinClr | pinTgl | pinOe | pinIn | pinTdat | pinTsel | pinTpop | pinPdat
  | pinPsel | pinVstat0 | pinVstat1 | pinSctl | pinSdiv | pinSstat | pinSdat | evtOwn | evtRte | evtClr |
  evtClaim | pwrMode | pwrStat | pwrWake | pwrAlarmHi | pwrAlarmLo | pwrPadRelease | pwrRstcause | pwrReset |
  pwrPrst | pwrVset | lcState | lcSn | lcKstat | jrnCtl | jrnStat | jrnUsed | jrnSeqHi | jrnSeqLo | jrnShare |
  dbgCcmd | dbgRdat | dbgRcmd | dbgStat | dbgCtl | dbgCapcmd | dbgCapt | dbgCapstat | dbgPdat | dbgPrgn |
  dbgPline | hrtOwn | hrtCtl | hrtStat | mgtFwver | mgtStat | mgtQocc
  deriving DecidableEq, Repr

/-- Access classes (Table 2-1). -/
inductive RCls where
  | rw | ro | wo | w1c | rwf | rwl
  deriving DecidableEq, Repr

/-- A half of a two-word register (R44). -/
inductive Half where
  | none | hi | lo
  deriving DecidableEq, Repr

/-- Whose word a register holds: the device's, each view's, each partition's. -/
inductive Store where
  | dev | view | part
  deriving DecidableEq, Repr

/-- One line of the map: offset, number of registers, step, class, half, whether writes are journaled, whether the
register stands in PF0's view only, where its word is held, reset value, writable bits. -/
structure RegRow where
  reg : Reg
  base : Nat
  count : Nat
  step : Nat
  cls : RCls
  half : Half
  jrn : Bool
  p0 : Bool
  store : Store
  reset : Nat
  mask : Nat
  deriving DecidableEq, Repr

/-- The map, part 0. -/
def regRows0 : List RegRow := [
  ⟨.sysId, 0x00000, 1, 4, .ro, .none, false, false, .dev, 0x0000, 0x0000⟩,
  ⟨.sysMode, 0x00004, 1, 4, .ro, .none, false, false, .dev, 0x0001, 0x0000⟩,
  ⟨.sysRegerr, 0x00008, 1, 4, .w1c, .none, false, false, .view, 0x0000, 0xE000⟩,
  ⟨.sysFwctl, 0x0000C, 1, 4, .wo, .none, true, false, .view, 0x0000, 0x4000⟩,
  ⟨.mbxSelHi, 0x00040, 1, 4, .rw, .hi, false, false, .view, 0x0000, 0xFFFF⟩,
  ⟨.mbxSelLo, 0x00044, 1, 4, .rw, .lo, false, false, .view, 0x0000, 0xFFFF⟩,
  ⟨.mbxCtl, 0x00048, 1, 4, .ro, .none, false, false, .dev, 0x0000, 0x0000⟩,
  ⟨.mbxD, 0x00050, 8, 4, .ro, .none, false, false, .dev, 0x0000, 0xFFFF⟩,
  ⟨.sysHstat, 0x00100, 1, 4, .ro, .none, false, false, .dev, 0x0000, 0x0000⟩,
  ⟨.sysRcfg, 0x00200, 12, 4, .rw, .none, false, false, .view, 0x0000, 0xFFFF⟩,
  ⟨.sysRsel, 0x00230, 1, 4, .wo, .none, true, false, .view, 0x0000, 0x0FFF⟩,
  ⟨.cfgLdcmd, 0x10000, 1, 4, .wo, .none, true, false, .view, 0x0000, 0x000F⟩,
  ⟨.cfgLdstat, 0x10004, 1, 4, .ro, .none, false, false, .view, 0x0000, 0x0000⟩,
  ⟨.cfgFadrHi, 0x10008, 1, 4, .ro, .none, false, false, .dev, 0x0000, 0xFFFF⟩,
  ⟨.cfgFadrLo, 0x1000C, 1, 4, .ro, .none, false, false, .dev, 0x0000, 0xFFFF⟩,
  ⟨.cfgFdat, 0x10010, 1, 4, .wo, .none, false, false, .dev, 0x0000, 0xFFFF⟩,
  ⟨.cfgFcrc, 0x10014, 1, 4, .ro, .none, false, false, .dev, 0x0000, 0xFFFF⟩,
  ⟨.cfgImgIdHi, 0x10018, 1, 4, .ro, .none, false, false, .dev, 0x0000, 0xFFFF⟩,
  ⟨.cfgImgIdLo, 0x1001C, 1, 4, .ro, .none, false, false, .dev, 0x0000, 0xFFFF⟩,
  ⟨.cfgKsel, 0x10020, 1, 4, .ro, .none, false, false, .dev, 0x0000, 0x0007⟩,
  ⟨.cfgPers, 0x10024, 1, 4, .ro, .none, false, false, .dev, 0x0000, 0xFFFF⟩,
  ⟨.cfgFailadrHi, 0x10028, 1, 4, .ro, .none, false, false, .dev, 0x0000, 0xFFFF⟩,
  ⟨.cfgFailadrLo, 0x1002C, 1, 4, .ro, .none, false, false, .dev, 0x0000, 0xFFFF⟩,
  ⟨.cfgBootstat, 0x10030, 1, 4, .ro, .none, false, true, .dev, 0x0000, 0x0000⟩,
  ⟨.cfgCgsel, 0x10100, 1, 4, .rw, .none, false, false, .view, 0x0000, 0x0003⟩,
  ⟨.cfgSwpfrmHi, 0x10104, 1, 4, .rw, .hi, false, false, .view, 0x0000, 0xFFFF⟩,
  ⟨.cfgSwpfrmLo, 0x10108, 1, 4, .rw, .lo, false, false, .view, 0x0000, 0xFFFF⟩,
  ⟨.cfgSwpcmd, 0x1010C, 1, 4, .wo, .none, true, false, .view, 0x0000, 0xF003⟩,
  ⟨.cfgCgstat, 0x10110, 4, 4, .ro, .none, false, false, .part, 0x0000, 0x0000⟩,
  ⟨.cfgScrctl, 0x10120, 1, 4, .rw, .none, true, true, .dev, 0x800C, 0x8FFF⟩,
  ⟨.cfgScrstat, 0x10124, 1, 4, .w1c, .none, false, false, .view, 0x0000, 0xE000⟩,
  ⟨.prtCtl, 0x20000, 1, 4, .rwl, .none, true, true, .dev, 0x0000, 0x8000⟩,
  ⟨.prtEn, 0x20004, 1, 4, .rwl, .none, true, true, .dev, 0x0001, 0xFFFE⟩,
  ⟨.prtRgn, 0x20100, 96, 4, .rwl, .none, true, true, .dev, 0x0000, 0xFFFF⟩,
  ⟨.brgGate, 0x21000, 64, 4, .rwl, .none, true, true, .dev, 0xFFFF, 0xFFFF⟩,
  ⟨.brgRej, 0x21100, 1, 4, .w1c, .none, false, false, .view, 0x0000, 0x8000⟩,
  ⟨.bnkOwn, 0x30000, 1536, 4, .rw, .none, true, false, .dev, 0x0000, 0x0F80⟩,
  ⟨.bnkTdm, 0x32000, 1536, 4, .rwf, .none, true, false, .dev, 0x0000, 0xFFFF⟩,
  ⟨.bnkWwc, 0x34000, 96, 4, .w1c, .none, false, false, .dev, 0x0000, 0xFFFF⟩,
  ⟨.bnkRetire, 0x34200, 1, 4, .wo, .none, true, true, .dev, 0x0000, 0x07FF⟩]

/-- The map, part 1. -/
def regRows1 : List RegRow := [
  ⟨.qeAdmCtl, 0x40000, 1, 4, .rw, .none, true, false, .part, 0x8004, 0x8FFF⟩,
  ⟨.qeQrange, 0x40100, 16, 4, .rwl, .none, true, true, .dev, 0x00FF, 0xFFFF⟩,
  ⟨.qePquota, 0x40140, 16, 4, .rwl, .none, true, true, .dev, 0x8000, 0xFFFF⟩,
  ⟨.qeFspshare, 0x40180, 16, 4, .rwl, .none, true, true, .dev, 0x0080, 0x00FF⟩,
  ⟨.qeSpill, 0x401C0, 16, 4, .rwl, .none, true, true, .dev, 0x0000, 0x80FF⟩,
  ⟨.qeQcfg, 0x40200, 6, 4, .rw, .none, false, false, .view, 0x0000, 0xFFFF⟩,
  ⟨.qeQselHi, 0x40218, 1, 4, .wo, .hi, true, false, .view, 0x0000, 0x000F⟩,
  ⟨.qeQselLo, 0x4021C, 1, 4, .wo, .lo, true, false, .view, 0x0000, 0xFFFF⟩,
  ⟨.qeMigegr, 0x40300, 1, 4, .rw, .none, false, false, .view, 0x0000, 0x1FFF⟩,
  ⟨.qeMigalw, 0x40304, 1, 4, .rw, .none, false, false, .view, 0x0000, 0xFFFF⟩,
  ⟨.qeMigrateHi, 0x40308, 1, 4, .wo, .hi, true, false, .view, 0x0000, 0x000F⟩,
  ⟨.qeMigrateLo, 0x4030C, 1, 4, .wo, .lo, true, false, .view, 0x0000, 0xFFFF⟩,
  ⟨.qeMigstat, 0x40310, 1, 4, .ro, .none, false, false, .view, 0x0000, 0x0000⟩,
  ⟨.qeSquota, 0x40400, 16, 4, .rwl, .none, true, true, .dev, 0x2000, 0xFFFF⟩,
  ⟨.qeFspb, 0x41000, 256, 4, .rw, .none, true, false, .dev, 0x0000, 0x87FF⟩,
  ⟨.qeFspr, 0x41400, 256, 4, .rw, .none, true, false, .dev, 0x0000, 0xE7FF⟩,
  ⟨.qeFspown, 0x41800, 64, 4, .rwl, .none, true, true, .dev, 0x0000, 0xFFFF⟩,
  ⟨.timCtl, 0x50000, 1, 4, .rwf, .none, true, true, .dev, 0x0000, 0xE000⟩,
  ⟨.timStat, 0x50004, 1, 4, .w1c, .none, false, false, .dev, 0x0000, 0x1000⟩,
  ⟨.timFlen, 0x50008, 1, 4, .rw, .none, true, true, .dev, 0x00FA, 0xFFFF⟩,
  ⟨.timHlen, 0x5000C, 1, 4, .rw, .none, true, true, .dev, 0x0000, 0x0FFF⟩,
  ⟨.timLdsecHi, 0x50010, 1, 4, .wo, .hi, true, true, .view, 0x0000, 0xFFFF⟩,
  ⟨.timLdsecLo, 0x50014, 1, 4, .wo, .lo, true, true, .view, 0x0000, 0xFFFF⟩,
  ⟨.timArange, 0x50100, 16, 4, .rwl, .none, true, true, .dev, 0x0080, 0x7FFF⟩,
  ⟨.timShare, 0x50200, 144, 4, .rwl, .none, true, true, .dev, 0x0000, 0x007F⟩,
  ⟨.timPgcmd, 0x50500, 1, 4, .wo, .none, true, false, .view, 0x0000, 0xE000⟩,
  ⟨.timPgfrmHi, 0x50504, 1, 4, .rw, .hi, false, false, .view, 0x0000, 0xFFFF⟩,
  ⟨.timPgfrmLo, 0x50508, 1, 4, .rw, .lo, false, false, .view, 0x0000, 0xFFFF⟩,
  ⟨.timPgstat, 0x5050C, 1, 4, .ro, .none, false, false, .part, 0x0000, 0x0000⟩,
  ⟨.timPgfailHi, 0x50510, 1, 4, .ro, .none, false, false, .part, 0x0000, 0xFFFF⟩,
  ⟨.timPgfailLo, 0x50514, 1, 4, .ro, .none, false, false, .part, 0x0000, 0xFFFF⟩,
  ⟨.timAent, 0x50600, 8, 4, .rw, .none, false, false, .view, 0x0000, 0xFFFF⟩,
  ⟨.timAidxHi, 0x50620, 1, 4, .wo, .hi, true, false, .view, 0x0000, 0xFFFF⟩,
  ⟨.timAidxLo, 0x50624, 1, 4, .wo, .lo, true, false, .view, 0x0000, 0xFFFF⟩,
  ⟨.segOwn, 0x60000, 192, 4, .rwl, .none, true, true, .dev, 0x0000, 0x000F⟩,
  ⟨.segCtl, 0x60400, 192, 4, .rw, .none, true, false, .dev, 0x0000, 0xFFFC⟩,
  ⟨.segPlca, 0x60800, 192, 4, .rw, .none, true, false, .dev, 0x2000, 0xFFFF⟩,
  ⟨.segMaxb, 0x60C00, 192, 4, .rw, .none, true, false, .dev, 0x0606, 0xFFFF⟩,
  ⟨.segStat, 0x61000, 192, 4, .ro, .none, false, false, .dev, 0x0000, 0x0000⟩,
  ⟨.segAbs, 0x61400, 192, 4, .rw, .none, true, false, .dev, 0x000A, 0xFFFF⟩]

/-- The map, part 2. -/
def regRows2 : List RegRow := [
  ⟨.segEvt, 0x61800, 192, 4, .w1c, .none, false, false, .dev, 0x0000, 0xFF00⟩,
  ⟨.segRent, 0x62000, 8, 4, .rw, .none, false, false, .view, 0x0000, 0xFFFF⟩,
  ⟨.segRsel, 0x62020, 1, 4, .wo, .none, true, false, .view, 0x0000, 0x3FFF⟩,
  ⟨.lnkDevid, 0x70000, 1, 4, .rw, .none, true, true, .dev, 0x0000, 0x0FFF⟩,
  ⟨.lnkGmid, 0x70004, 1, 4, .rw, .none, true, true, .dev, 0x0000, 0x0FFF⟩,
  ⟨.lnkRetry, 0x70008, 1, 4, .rw, .none, true, true, .dev, 0x000A, 0xFFFF⟩,
  ⟨.lnkIncHi, 0x7000C, 1, 4, .ro, .none, false, false, .dev, 0x0000, 0xFFFF⟩,
  ⟨.lnkIncLo, 0x70010, 1, 4, .ro, .none, false, false, .dev, 0x0000, 0xFFFF⟩,
  ⟨.lnkCtl, 0x70100, 8, 4, .rw, .none, true, true, .dev, 0x0000, 0xC000⟩,
  ⟨.lnkAsym, 0x70120, 8, 4, .rw, .none, true, true, .dev, 0x0000, 0xFFFF⟩,
  ⟨.lnkStat, 0x70140, 8, 4, .ro, .none, false, false, .dev, 0x0000, 0x0000⟩,
  ⟨.lnkEvt, 0x70160, 8, 4, .w1c, .none, false, false, .dev, 0x0000, 0xFE00⟩,
  ⟨.memWin, 0x80000, 256, 4, .rwl, .none, true, true, .dev, 0x0000, 0x400F⟩,
  ⟨.memStat0, 0x80400, 1, 4, .ro, .none, false, false, .dev, 0x0000, 0x0000⟩,
  ⟨.memStat1, 0x80404, 1, 4, .ro, .none, false, false, .dev, 0x0000, 0x0000⟩,
  ⟨.memScrctl, 0x80410, 5, 4, .rw, .none, true, true, .dev, 0x8000, 0x8000⟩,
  ⟨.memScrpassHi, 0x80430, 5, 8, .rw, .hi, true, true, .dev, 0x0000, 0xFFFF⟩,
  ⟨.memScrpassLo, 0x80434, 5, 8, .rw, .lo, true, true, .dev, 0x0E10, 0xFFFF⟩,
  ⟨.memLogpop, 0x80460, 1, 4, .wo, .none, false, true, .dev, 0x0000, 0x0003⟩,
  ⟨.memRetireHi, 0x80500, 1, 4, .wo, .hi, true, true, .view, 0x0000, 0xFFFF⟩,
  ⟨.memRetireLo, 0x80504, 1, 4, .wo, .lo, true, true, .view, 0x0000, 0xFFFF⟩,
  ⟨.memRetcnt, 0x80508, 1, 4, .ro, .none, false, true, .dev, 0x0000, 0x07FF⟩,
  ⟨.memMaint, 0x80600, 1, 4, .ro, .none, false, true, .dev, 0x0000, 0x0000⟩,
  ⟨.flsUqHi, 0x90000, 16, 8, .rwl, .hi, true, true, .dev, 0x0000, 0x07FF⟩,
  ⟨.flsUqLo, 0x90004, 16, 8, .rwl, .lo, true, true, .dev, 0x0000, 0x0FFF⟩,
  ⟨.flsStat, 0x90100, 1, 4, .ro, .none, false, false, .dev, 0x0000, 0x0000⟩,
  ⟨.pinOwn, 0xA0000, 64, 4, .rwl, .none, true, true, .dev, 0x0000, 0xFFFF⟩,
  ⟨.pinUown, 0xA0100, 16, 4, .rwl, .none, true, true, .dev, 0x0000, 0xFFFF⟩,
  ⟨.pinCfg, 0xA0400, 256, 4, .rw, .none, true, false, .dev, 0x0000, 0xFFFF⟩,
  ⟨.pinAux, 0xA0800, 256, 4, .rw, .none, true, false, .dev, 0x0000, 0xFFFF⟩,
  ⟨.pinOut, 0xA0C00, 16, 4, .rw, .none, false, false, .dev, 0x0000, 0xFFFF⟩,
  ⟨.pinSet, 0xA0C40, 16, 4, .wo, .none, false, false, .dev, 0x0000, 0xFFFF⟩,
  ⟨.pinClr, 0xA0C80, 16, 4, .wo, .none, false, false, .dev, 0x0000, 0xFFFF⟩,
  ⟨.pinTgl, 0xA0CC0, 16, 4, .wo, .none, false, false, .dev, 0x0000, 0xFFFF⟩,
  ⟨.pinOe, 0xA0D00, 16, 4, .rw, .none, false, false, .dev, 0x0000, 0xFFFF⟩,
  ⟨.pinIn, 0xA0D40, 16, 4, .ro, .none, false, false, .dev, 0x0000, 0x0000⟩,
  ⟨.pinTdat, 0xA0E00, 4, 4, .rw, .none, false, false, .view, 0x0000, 0xFFFF⟩,
  ⟨.pinTsel, 0xA0E10, 1, 4, .wo, .none, false, false, .view, 0x0000, 0xC0FF⟩,
  ⟨.pinTpop, 0xA0E14, 1, 4, .wo, .none, false, false, .dev, 0x0000, 0x00FF⟩,
  ⟨.pinPdat, 0xA0E20, 21, 4, .rw, .none, false, false, .view, 0x0000, 0xFFFF⟩]

/-- The map, part 3. -/
def regRows3 : List RegRow := [
  ⟨.pinPsel, 0xA0E74, 1, 4, .wo, .none, true, false, .view, 0x0000, 0x001F⟩,
  ⟨.pinVstat0, 0xA0F00, 1, 4, .ro, .none, false, false, .dev, 0x0000, 0xFFFF⟩,
  ⟨.pinVstat1, 0xA0F04, 1, 4, .ro, .none, false, false, .dev, 0x0000, 0xFFFF⟩,
  ⟨.pinSctl, 0xA1000, 32, 16, .rw, .none, true, false, .dev, 0x0000, 0x8F00⟩,
  ⟨.pinSdiv, 0xA1004, 32, 16, .rw, .none, true, false, .dev, 0x0000, 0xFFFF⟩,
  ⟨.pinSstat, 0xA1008, 32, 16, .w1c, .none, false, false, .dev, 0x4000, 0x1800⟩,
  ⟨.pinSdat, 0xA100C, 32, 16, .rw, .none, false, false, .dev, 0x0000, 0xFFFF⟩,
  ⟨.evtOwn, 0xB0000, 512, 4, .rwl, .none, true, true, .dev, 0x0000, 0xFFFF⟩,
  ⟨.evtRte, 0xB1000, 2048, 4, .rw, .none, true, false, .dev, 0x0000, 0xFFFF⟩,
  ⟨.evtClr, 0xB4000, 1, 4, .wo, .none, false, false, .dev, 0x0000, 0x07FF⟩,
  ⟨.evtClaim, 0xB4010, 4, 4, .ro, .none, false, false, .dev, 0x0000, 0x0000⟩,
  ⟨.pwrMode, 0xC0000, 1, 4, .rw, .none, true, true, .dev, 0x0005, 0x000F⟩,
  ⟨.pwrStat, 0xC0004, 1, 4, .ro, .none, false, false, .dev, 0x0000, 0x0000⟩,
  ⟨.pwrWake, 0xC0008, 1, 4, .rw, .none, true, true, .dev, 0x0000, 0xE07F⟩,
  ⟨.pwrAlarmHi, 0xC000C, 1, 4, .rw, .hi, true, true, .dev, 0x0000, 0xFFFF⟩,
  ⟨.pwrAlarmLo, 0xC0010, 1, 4, .rw, .lo, true, true, .dev, 0x0000, 0xFFFF⟩,
  ⟨.pwrPadRelease, 0xC0014, 1, 4, .w1c, .none, true, true, .dev, 0x0000, 0xFFFF⟩,
  ⟨.pwrRstcause, 0xC0018, 1, 4, .w1c, .none, false, false, .dev, 0x8000, 0xFC00⟩,
  ⟨.pwrReset, 0xC0020, 1, 4, .wo, .none, true, true, .dev, 0x0000, 0xFFFF⟩,
  ⟨.pwrPrst, 0xC0024, 1, 4, .wo, .none, true, false, .view, 0x0000, 0x0001⟩,
  ⟨.pwrVset, 0xC0028, 1, 4, .ro, .none, false, false, .dev, 0x02BC, 0xFFFF⟩,
  ⟨.lcState, 0xD0000, 1, 4, .ro, .none, false, false, .dev, 0x0000, 0x0000⟩,
  ⟨.lcSn, 0xD0010, 8, 4, .ro, .none, false, false, .dev, 0x0000, 0xFFFF⟩,
  ⟨.lcKstat, 0xD0040, 1, 4, .ro, .none, false, true, .dev, 0x0000, 0x0000⟩,
  ⟨.jrnCtl, 0xE0000, 1, 4, .rw, .none, true, true, .dev, 0x400A, 0xC0FF⟩,
  ⟨.jrnStat, 0xE0004, 1, 4, .w1c, .none, false, true, .dev, 0x0000, 0x6000⟩,
  ⟨.jrnUsed, 0xE0008, 1, 4, .ro, .none, false, true, .dev, 0x0000, 0x3FFF⟩,
  ⟨.jrnSeqHi, 0xE000C, 1, 4, .ro, .none, false, false, .dev, 0x0000, 0xFFFF⟩,
  ⟨.jrnSeqLo, 0xE0010, 1, 4, .ro, .none, false, false, .dev, 0x0000, 0xFFFF⟩,
  ⟨.jrnShare, 0xE0100, 16, 4, .rwl, .none, true, true, .dev, 0x1FC0, 0x3FFF⟩,
  ⟨.dbgCcmd, 0xEC000, 1, 4, .wo, .none, true, false, .view, 0x0000, 0x8007⟩,
  ⟨.dbgRdat, 0xEC004, 1, 4, .wo, .none, false, false, .view, 0x0000, 0xFFFF⟩,
  ⟨.dbgRcmd, 0xEC008, 1, 4, .wo, .none, true, false, .view, 0x0000, 0xC000⟩,
  ⟨.dbgStat, 0xEC00C, 1, 4, .ro, .none, false, false, .view, 0x0000, 0x0000⟩,
  ⟨.dbgCtl, 0xEC010, 1, 4, .rw, .none, true, false, .dev, 0x0000, 0x8000⟩,
  ⟨.dbgCapcmd, 0xED000, 1, 4, .wo, .none, true, false, .view, 0x0000, 0xF000⟩,
  ⟨.dbgCapt, 0xED004, 4, 4, .rw, .none, false, false, .view, 0x0000, 0xFFFF⟩,
  ⟨.dbgCapstat, 0xED014, 1, 4, .ro, .none, false, false, .view, 0x0000, 0x0000⟩,
  ⟨.dbgPdat, 0xEE000, 16, 4, .rw, .none, false, false, .view, 0x0980, 0x0FFF⟩,
  ⟨.dbgPrgn, 0xEE040, 1, 4, .wo, .none, true, false, .view, 0x0000, 0x01FF⟩]

/-- The map, part 4. -/
def regRows4 : List RegRow := [
  ⟨.dbgPline, 0xEE100, 64, 4, .rw, .none, true, false, .dev, 0x0000, 0x9FFF⟩,
  ⟨.hrtOwn, 0xF0000, 4, 4, .rwl, .none, true, true, .dev, 0x0000, 0x000F⟩,
  ⟨.hrtCtl, 0xF0010, 4, 4, .rw, .none, true, false, .dev, 0x0000, 0xC7FF⟩,
  ⟨.hrtStat, 0xF0020, 4, 4, .ro, .none, false, false, .dev, 0x0000, 0x0000⟩,
  ⟨.mgtFwver, 0xF0100, 1, 4, .ro, .none, false, false, .dev, 0x0000, 0x0000⟩,
  ⟨.mgtStat, 0xF0104, 1, 4, .ro, .none, false, false, .dev, 0x0000, 0x0000⟩,
  ⟨.mgtQocc, 0xF0108, 1, 4, .ro, .none, false, false, .view, 0x0000, 0x0000⟩]

/-- The whole map. -/
def regMap : List RegRow := regRows0 ++ regRows1 ++ regRows2 ++ regRows3 ++ regRows4

/-- The line whose registers hold an offset. -/
def RegRow.holds (r : RegRow) (off : Nat) : Bool :=
  decide (r.base ≤ off) && decide (off < r.base + r.count * r.step) && (off - r.base) % r.step == 0

/-- The register at an offset, and its index in its array; a framed register's _STG view lies 0x8000 higher (R40). -/
def findReg (off : Nat) : Option (RegRow × Nat × Bool) :=
  match regMap.find? (·.holds off) with
  | some r => some (r, (off - r.base) / r.step, false)
  | none =>
    match regMap.find? (fun r => r.cls == .rwf && decide (0x8000 ≤ off) && r.holds (off - 0x8000)) with
    | some r => some (r, (off - 0x8000 - r.base) / r.step, true)
    | none => none

/-- The reset value of a register; P0's entry and a few ranges differ from the rest of their array. -/
def RegRow.resetAt (r : RegRow) (i : Nat) : Word :=
  match r.reg with
  | .qeQrange => if i = 0 then 0x00FF else 0xFF00
  | .timShare => if i % 16 = 0 then (if i < 128 then 44 else 96) else 0
  | .evtRte => if 1808 ≤ i ∧ i < 1872 then 0xB000 else 0
  | .qePquota | .qeFspshare | .qeSquota | .timArange | .jrnShare | .flsUqLo =>
    if i = 0 then (if r.reg = .flsUqLo then 0x0800 else BitVec.ofNat 16 r.reset) else 0
  | _ => BitVec.ofNat 16 r.reset

/-- The clock domain of a register or of a mailbox object: CLK_M, always-on (REF_CLK), or the user clocks of a partition
(R46, R48). -/
inductive Domain where
  | clkM
  | alwaysOn
  | user (part : Nat)
  deriving DecidableEq, Repr

/-- The domain that a register's description names: CLK_M, but for the always-on registers of chapter 17. -/
def Reg.domain : Reg → Domain
  | .pwrStat | .pwrWake | .pwrAlarmHi | .pwrAlarmLo | .pwrPadRelease | .pwrRstcause => .alwaysOn
  | _ => .clkM

/-- A domain is stopped or gated (R48): the user clocks in M6, in M7 and under capture; the always-on logic while REF_CLK
is absent. -/
def domainStopped (s : State) : Domain → Bool
  | .clkM => false
  | .alwaysOn => s.clk.refAbsent
  | .user p => !userRuns s p

/-- The offset of a register's own word: the base view of a framed register. -/
def RegRow.off (r : RegRow) (i : Nat) : Nat := r.base + i * r.step

/-- The stored word of a register, as a view sees it. -/
def stored (s : State) (r : RegRow) (i : Nat) (v : View) : Word :=
  match r.store with
  | .dev => dev s (r.off i) (r.resetAt i)
  | .view => vw s v (r.off i) (r.resetAt i)
  | .part => pw s (viewPart s v) (r.off i) (r.resetAt i)

/-- s with the stored word of a register replaced. -/
def setStored (s : State) (r : RegRow) (i : Nat) (v : View) (x : Word) : State :=
  match r.store with
  | .dev => setDev s (r.off i) (r.resetAt i) x
  | .view => setVw s v (r.off i) (r.resetAt i) x
  | .part => setPw s (viewPart s v) (r.off i) (r.resetAt i) x

/-- The registers the side-port and JTAG views hold while no session is active (R385). -/
def limitedReg (v : View) : Reg → Bool
  | .sysId | .sysMode | .lcState | .lcSn | .lcKstat => true
  | .dbgCcmd | .dbgRdat | .dbgRcmd | .dbgStat | .dbgCtl => true
  | .dbgCapcmd | .dbgCapt | .dbgCapstat | .dbgPdat | .dbgPrgn | .dbgPline => true
  | .mbxSelHi | .mbxSelLo | .mbxCtl | .mbxD => true
  | .cfgLdcmd | .cfgFdat => v == .side
  | _ => false

/-- Registers that answer in M11 (R21): identity only. -/
def identityReg : Reg → Bool
  | .sysId | .sysMode | .lcState | .lcSn => true
  | _ => false

/-- The view holds the registers of PF0's view: PF0, Chaty, and with a session the side port and JTAG (R385). -/
def fullView (s : State) (v : View) : Bool := v == .pf0 || v == .chaty || ((v == .side || v == .jtag) && session s)

/-- The resource of a register lies in the view's partition (R26, R53), for registers of one resource. -/
def ownsReg (s : State) (v : View) (r : Reg) (i : Nat) : Bool :=
  let p := viewPart s v
  match r with
  | .bnkOwn => fullView s v || bankPart s i == p
  | .bnkTdm => bankPart s i == p
  | .segCtl | .segPlca | .segMaxb | .segStat | .segAbs | .segEvt => segPart s i == p
  | .qeFspb | .qeFspr => fspPart s i == p
  | .pinCfg | .pinAux => pinPart s i == p
  | .pinSctl | .pinSdiv | .pinSstat | .pinSdat => unitPart s i == p
  | .hrtCtl | .hrtStat | .evtClaim => hartPart s i == p
  | .evtRte => evtOwner s i == p
  | .pinPsel | .pinPdat => s.fab.pers == 0
  | _ => true

/-- A debugging register of the PF0, JTAG and side-port views only (chapter 18). -/
def debugViewReg (v : View) : Reg → Bool
  | .dbgCcmd | .dbgCtl => v == .pf0 || v == .jtag || v == .side
  | .cfgFdat => v == .side
  | _ => true

/-- The view exists: a VF up to NumVFs, none under an ET7 personality (R31, R240). -/
def viewExists (s : State) : View → Bool
  | .vf n => decide (1 ≤ n ∧ n ≤ 15 ∧ n ≤ s.host.numVFs) && s.fab.pers == 0
  | .hart n => decide (n < 4)
  | _ => true

/-- A register is visible in a view (R21, R53, R385). -/
def visible (s : State) (v : View) (r : RegRow) (i : Nat) : Bool :=
  let port := v == .side || v == .jtag
  (s.mode != .m11 || identityReg r.reg)
    && viewExists s v
    && (!port || session s || limitedReg v r.reg)
    && (!r.p0 || fullView s v)
    && debugViewReg v r.reg
    && ownsReg s v r.reg i

end Sys2Proof.Machine
end

