-- ==== Sys2Proof/Machine/ErrLog.lean ====
section
/-! DEFINITION. The error log and the counts of corrected and uncorrectable reads (R315 to R318). -/

namespace Sys2Proof.Machine

/-- What a logged read found (Table 14-3). -/
structure ErrRec where
  cls : Nat
  ue : Bool
  src : Nat
  part : Nat
  dev : Nat
  count : Nat
  sub : Nat
  rank : Nat
  addr : Nat
  deriving DecidableEq, Repr

/-- The record of Table 14-3. -/
def ErrRec.bits (e : ErrRec) (t : Nat) : BitVec 128 :=
  BitVec.ofNat 128 (t % 2 ^ 64 * 2 ^ 64 + (if e.ue then 2 else 1) * 2 ^ 60 + e.src % 16 * 2 ^ 56
    + e.part % 16 * 2 ^ 52 + e.dev % 16 * 2 ^ 48 + (if e.ue then 0 else sat 8 e.count) * 2 ^ 40
    + e.sub % 2 * 2 ^ 39 + e.rank % 2 * 2 ^ 38 + e.addr % 2 ^ 38)

/-- An OVF record: time, kind and count (Table 14-3). -/
def ovfBits (t n : Nat) : BitVec 128 :=
  BitVec.ofNat 128 (t % 2 ^ 64 * 2 ^ 64 + 3 * 2 ^ 60 + sat 8 n * 2 ^ 40)

/-- The event of a class: classes 0 to 2 in pairs from 1,648; class 3 by channel (R323). -/
def ErrRec.event (e : ErrRec) : Nat :=
  let pair := if e.cls < 3 then e.cls else 3 + fld e.addr 37 37
  1648 + 2 * pair + (if e.ue then 1 else 0)

/-- A record enters its FIFO; a full FIFO drops and counts it, and LOG_OVF is raised each time dropping begins
(R316). -/
def storeLog (s : State) (c : Nat) (r : BitVec 128) : State :=
  let q := tget [] s.dram.log c
  if q.length < 64 then { s with dram := { s.dram with log := tset [] s.dram.log c (q ++ [r]) } }
  else
    let n := tget 0 s.dram.dropped c
    let s := { s with dram := { s.dram with dropped := tset 0 s.dram.dropped c (n + 1) } }
    if n = 0 then raiseEv s 1658 else s

/-- A corrected or uncorrectable read: log record, count and event (R315 to R318). An OVF record goes first when
records were dropped and a place is free (R316). -/
def logError (s : State) (e : ErrRec) : State :=
  let n := tget 0 s.dram.dropped e.cls
  let s := if n ≠ 0 ∧ (tget [] s.dram.log e.cls).length < 64 then
      storeLog { s with dram := { s.dram with dropped := tset 0 s.dram.dropped e.cls 0 } } e.cls (ovfBits (sysNow s) n)
    else s
  let s := storeLog s e.cls (e.bits (sysNow s))
  let key := 8 * e.part + 2 * e.cls + (if e.ue then 1 else 0)
  let s := { s with dram := { s.dram with errCnt := tmod 0 s.dram.errCnt key fun c => sat 16 (c + 1) } }
  raiseEv s e.event

/-- MEM_LOGPOP removes the oldest record of a class (R317). -/
def popLog (s : State) (c : Nat) : State :=
  { s with dram := { s.dram with log := tset [] s.dram.log c ((tget [] s.dram.log c).drop 1) } }

end Sys2Proof.Machine
end

