-- ==== Sys2Proof/Machine/Banks.lean ====
section
/-! DEFINITION. Memory banks: check bits, poison, the accesses of both ports, collisions, ownership and handover fills
(R112 to R131, R319). -/

namespace Sys2Proof.Machine

/-- Bytes of a bank. -/
abbrev bankSize : Nat := 0x8000

/-- The key of a byte of a bank: its system address less 0x4000_0000 (R114). -/
def bankKey (b a : Nat) : Nat := b * bankSize + a % bankSize

/-- A stored byte with its check status; an unlisted byte is poison (R117). -/
def bankByte (s : State) (k : Nat) : Byte × Chk := (tget 0 s.bank.data k, tget .ue s.bank.chk k)

/-- s with one byte of a bank stored, with good check bits. -/
def putByte (s : State) (k : Nat) (d : Byte) (c : Chk) : State :=
  { s with bank := { s.bank with data := tset 0 s.bank.data k d, chk := tset .ue s.bank.chk k c } }

/-- s with bytes of a bank stored from a byte address, wrapping in the bank (R113). -/
def putBytes (b : Nat) : State → Nat → List Byte → State
  | s, _, [] => s
  | s, a, d :: ds => putBytes b (putByte s (bankKey b a) d .good) (a + 1) ds

/-- The bytes of a bank from a byte address, wrapping in the bank (R113). -/
def bankBytes (s : State) (b a : Nat) : Nat → List (Nat × Byte × Chk)
  | 0 => []
  | n + 1 => (bankKey b a, bankByte s (bankKey b a)) :: bankBytes s b (a + 1) n

/-- s with a bank poison-filled (R117): nothing of it is listed. -/
def poisonBank (s : State) (b : Nat) : State :=
  let out := fun k => !(decide (b * bankSize ≤ k) && decide (k < (b + 1) * bankSize))
  { s with bank := { s.bank with data := tkeep out s.bank.data, chk := tkeep out s.bank.chk } }

/-- s with every bank poison-filled (R117, R155). -/
def poisonAll (s : State) : State := { s with bank := { s.bank with data := [], chk := [] } }

/-- A handover fill of the bank runs: BNK_OWNn.BUSY (R129). -/
def bankBusy (s : State) (b : Nat) : Bool := (bankFill s b).isSome

/-- A retired bank (R319). -/
def bankRetired (s : State) (b : Nat) : Bool := s.bank.retired.contains b

/-- The owner master of a bank, 0 NONE at reset (R128). -/
def bankMaster (s : State) (b : Nat) : Nat := tget 0 s.bank.master b

/-- BNK_TDMn (R124). -/
def bankTdm (s : State) (b : Nat) : Nat := (dev s (0x32000 + 4 * b) 0).toNat

/-- The owner of a wheel slot's code: OWNER is the owner master (Table 6-1). -/
def slotMaster (s : State) (b pos : Nat) : Nat :=
  let c := fld (bankTdm s b) (4 * (pos % 4) + 3) (4 * (pos % 4))
  if c = 0 then bankMaster s b else c

/-- A master has a slot of its own in the wheel or is the owner (R122, R123). -/
def hasSlot (s : State) (b m : Nat) : Bool :=
  bankMaster s b == m || (List.range 4).any fun i => slotMaster s b i == m

/-- The F1 edge at which a capture or a service commanded now takes place. -/
def nextEdge (s : State) : Nat := s.clk.f1 + 1

/-- The array cycle that starts at the coming edge. -/
def cycleOf (s : State) (b : Nat) : ArrayCycle :=
  let c := tget { f1 := 0 } s.bank.cycle b
  if c.f1 = nextEdge s then c else { f1 := nextEdge s }

/-- s with the array cycle's record replaced. -/
def setCycle (s : State) (b : Nat) (c : ArrayCycle) : State :=
  { s with bank := { s.bank with cycle := tset { f1 := 0 } s.bank.cycle b c } }

/-- A byte as it stood before writes of the other port in this array cycle (R126). -/
def before (log : List (Nat × Byte × Byte × Chk)) (k : Nat) (now : Byte × Chk) : Byte × Chk :=
  match log.find? (·.1 == k) with
  | some e => (e.2.2.1, e.2.2.2)
  | none => now

/-- First uncorrectable or first corrected byte of a read, as (key, number of such bytes). -/
def firstBad (c : Chk) (bs : List (Nat × Byte × Chk)) : Option (Nat × Nat) :=
  match bs.find? (·.2.2 == c) with
  | some e => some (e.1, (bs.filter (·.2.2 == c)).length)
  | none => none

/-- The log record of a bank read (Table 14-3): DEV is the byte lane of the first affected byte. -/
def bankErr (s : State) (ue : Bool) (src key n : Nat) : ErrRec :=
  ⟨0, ue, src, bankPart s (key / bankSize), key % 4, n, 0, 0, key⟩

/-- s after the corrections and uncorrectable bytes of a bank read entered the error log (R115, R315). -/
def logBank (s : State) (src : Nat) (bs : List (Nat × Byte × Chk)) : State :=
  let s := match firstBad .cor bs with
    | some (k, n) => logError s (bankErr s false src k n)
    | none => s
  match firstBad .ue bs with
  | some (k, n) => logError s (bankErr s true src k n)
  | none => s

/-- BANK_WW_COLLIDE (R127): the bank's bit in BNK_WWC and the region's event. -/
def collide (s : State) (b : Nat) : State :=
  let off := 0x34000 + 4 * (b / 16)
  let w := (dev s off 0).toNat
  raiseEv (setDev s off 0 (BitVec.ofNat 16 (Nat.lor w (2 ^ (b % 16))))) (640 + bankRegion b)

/-! ### Port A (R119, R71, R72) -/

/-- OUT of a memory site. -/
def siteOf (s : State) (b : Nat) : MemSite := tget {} s.fab.site b

/-- s with a result on its way to a memory site's OUT: two F1 cycles after the capture (R69, R119). -/
def siteResult (s : State) (b : Nat) (o : SiteOut) : State :=
  let m := siteOf s b
  { s with fab := { s.fab with site := tset {} s.fab.site b { m with pend := m.pend ++ [(nextEdge s + 2, o)] } } }

/-- A port A read captured at the coming edge (R72, R115, R126, R131, R319). A bank whose fill runs answers UE with
data the manual does not state. -/
def portARead (s : State) (b : Nat) (wide : Bool) (a : Nat) : State :=
  if bankRetired s b then siteResult s b { data := 0, ue := true }
  else if bankBusy s b then
    let (n, s) := draw s
    siteResult s b { data := Config.freeWord n 0, ue := true }
  else
    let cyc := cycleOf s b
    let bs := (bankBytes s b a (if wide then 2 else 1)).map fun e => (e.1, before cyc.bWrote e.1 e.2)
    let o : SiteOut := ⟨BitVec.ofNat 16 (leVal (bs.map (·.2.1))), bs.any (·.2.2 == .ue), bs.any (·.2.2 == .cor)⟩
    siteResult (logBank s 0 bs) b o

/-- A port A write of n bytes ends the reservations that harts hold on a word it touches (R337). -/
def dropReservations (s : State) (b a n : Nat) : State :=
  (List.range 4).foldl (fun s h =>
    let x := hartOf s h
    match x.reservation with
    | some w =>
      if (List.range n).any fun i => (0x40000000 + bankKey b (a + i)) / 4 == w.toNat / 4 then
        setHart s h { x with reservation := none }
      else s
    | none => s) s

/-- A port A write captured at the coming edge (R72, R117, R126, R131, R319): its bytes win over port B's in the same
array cycle. -/
def portAWrite (s : State) (b : Nat) (wide : Bool) (a : Nat) (d : Word) : State :=
  if bankRetired s b || bankBusy s b then s
  else
    let cyc := cycleOf s b
    let ds := leBytes (if wide then 2 else 1) d.toNat
    let old := bankBytes s b a ds.length
    let wrote := (old.zip ds).map fun e => (e.1.1, e.2, before cyc.bWrote e.1.1 e.1.2)
    let s := dropReservations (putBytes b s a ds) b a ds.length
    let s := setCycle s b { cyc with aWrote := wrote }
    if old.any fun e => cyc.bWrote.any (·.1 == e.1) then collide s b else s

/-! ### Port B (R120 to R126) -/

/-- Bytes of an access. -/
def accSize : Acc → Nat
  | .read n => n
  | .write bs => bs.length
  | .amo _ _ => 4

/-- An access that writes. -/
def accWrites : Acc → Bool
  | .read _ => false
  | _ => true

/-- The refusal that port B decides at the edge at which a request reaches the bank (R123, R131, R319): DENIED before
BUSY, in the order of R430, where the manual orders them for no port B request (DESIGN CHOICE, log 105). -/
def portBRefusal (s : State) (b m p : Nat) (acc : Acc) : Option Nat :=
  let owner := bankMaster s b
  if bankRetired s b || p != bankPart s b || owner == 0 || !hasSlot s b m
      || (accWrites acc && (owner != m || owner == 1)) then some stDenied
  else if bankBusy s b then some stBusy
  else none

/-- The word that an AMO of RV32A stores, by the number of `AmoOp` (R337). -/
def amoWord (op : Nat) (old new : BitVec 32) : BitVec 32 :=
  match op with
  | 0 => new
  | 1 => old + new
  | 2 => old ^^^ new
  | 3 => old &&& new
  | 4 => old ||| new
  | 5 => if old.slt new then old else new
  | 6 => if new.slt old then old else new
  | 7 => if old.toNat < new.toNat then old else new
  | _ => if new.toNat < old.toNat then old else new

/-- A port B access in the array cycle of the coming edge: status, data read, and s (R115, R126). Bytes that port A
writes in the same cycle keep port A's data. -/
def portBAccess (s : State) (b a : Nat) (src : Nat) (acc : Acc) : Nat × List Byte × State :=
  let cyc := cycleOf s b
  let old := (bankBytes s b a (accSize acc)).map fun e => (e.1, before cyc.aWrote e.1 e.2)
  let write := fun (s : State) (ds : List Byte) =>
    let keep := (old.zip ds).filter fun e => !cyc.aWrote.any (·.1 == e.1.1)
    let s := keep.foldl (fun s e => putByte s e.1.1 e.2 .good) s
    let s := setCycle s b { cyc with bUsed := true, bWrote := keep.map fun e => (e.1.1, e.2, e.1.2) }
    if keep.length < ds.length then collide s b else s
  match acc with
  | .write ds => (stOk, [], write s ds)
  | .read _ =>
    let s := logBank s src old
    let s := setCycle s b { cyc with bUsed := true }
    if old.any (·.2.2 == .ue) then (stUe, [], s) else (stOk, old.map (·.2.1), s)
  | .amo op v =>
    let s := logBank s src old
    if old.any (·.2.2 == .ue) then (stUe, [], setCycle s b { cyc with bUsed := true })
    else
      let w := amoWord op (BitVec.ofNat 32 (leVal (old.map (·.2.1)))) v
      (stOk, old.map (·.2.1), write s (leBytes 4 w.toNat))

/-- The bank of a system address, and the byte address in it (R114). -/
def bankOf (addr : Nat) : Option (Nat × Nat) :=
  if 0x40000000 ≤ addr ∧ addr < 0x43000000 then
    some ((addr - 0x40000000) / bankSize, (addr - 0x40000000) % bankSize)
  else none

/-- s with a port B request at its bank: refused at the edge of its arrival, or waiting (R121, R123). The request's
number is returned. -/
def portBRequest (s : State) (m p b a : Nat) (acc : Acc) : Nat × State :=
  let id := s.bank.nextId
  let s := { s with bank := { s.bank with nextId := id + 1 } }
  match portBRefusal s b m p acc with
  | some st =>
    (id, { s with bank := { s.bank with done := s.bank.done ++ [⟨id, m, nextEdge s + 3, st, []⟩] } })
  | none =>
    let q := tget [] s.bank.waiting b
    (id, { s with bank := { s.bank with waiting := tset [] s.bank.waiting b (q ++ [⟨id, m, p, a, acc⟩]) } })

/-- A hart whose user clocks are stopped is not served (Table 19-4). -/
def masterHeld (s : State) (m : Nat) : Bool := decide (2 ≤ m ∧ m < 6) && !userRuns s (hartPart s (m - 2))

/-- The request that port B serves in the cycle of the coming edge: the oldest of the slot's master, else of the owner
(R121). -/
def portBChoice (s : State) (b : Nat) : Option (BReq × List BReq) :=
  let q := tget [] s.bank.waiting b
  let m := slotMaster s b (nextEdge s % 4)
  match pick (fun r => r.master == m && !masterHeld s r.master) q with
  | some r => some r
  | none => pick (fun r => r.master == bankMaster s b && !masterHeld s r.master) q

/-- Port B is idle in the cycle of the coming edge: a maintenance access may take it (R121). -/
def portBIdle (s : State) (b : Nat) : Bool := !(cycleOf s b).bUsed && (portBChoice s b).isNone

/-- An SC whose reservation has gone writes nothing (R337). -/
def scLost (s : State) (r : BReq) : Bool :=
  decide (2 ≤ r.master ∧ r.master < 6)
    && (match (hartOf s (r.master - 2)).wait with
      | some (.sc _ id) => id == r.id && (hartOf s (r.master - 2)).reservation.isNone
      | _ => false)

/-- LR reserves its word when it is served, and a served SC uses the reservation up (R337). -/
def hartServed (s : State) (b : Nat) (r : BReq) : State :=
  if 2 ≤ r.master ∧ r.master < 6 then
    let x := hartOf s (r.master - 2)
    match x.wait with
    | some (.load _ _ _ true id) =>
      if id = r.id then setHart s (r.master - 2) { x with reservation := some (BitVec.ofNat 32 (0x40000000 + bankKey b r.addr)) }
      else s
    | some (.sc _ id) => if id = r.id then setHart s (r.master - 2) { x with reservation := none } else s
    | _ => s
  else s

/-- Requests that wait for a master which a handover has left without a slot: no slot will serve them, and they are
refused with DENIED at the next edge, three edges before their completion (R123, R129; DESIGN CHOICE, log 104). -/
def refuseStranded (s : State) (b : Nat) : State :=
  let q := tget [] s.bank.waiting b
  let out := q.filter fun r => !hasSlot s b r.master
  if out.isEmpty then s
  else { s with bank := { s.bank with
    waiting := tset [] s.bank.waiting b (q.filter fun r => hasSlot s b r.master)
    done := s.bank.done ++ out.map fun r => ⟨r.id, r.master, nextEdge s + 3, stDenied, []⟩ } }

/-- Port B serves one request (R121, R126); its data and completion return three edges later. A request that the bank's
state refuses meanwhile is refused (R129, R131). -/
def portBService (s : State) (b : Nat) : State :=
  let s := refuseStranded s b
  if (cycleOf s b).bUsed then s
  else
    match portBChoice s b with
    | none => s
    | some (r, rest) =>
      let s := { s with bank := { s.bank with waiting := tset [] s.bank.waiting b rest } }
      match portBRefusal s b r.master r.part r.acc with
      | some st =>
        { s with bank := { s.bank with done := s.bank.done ++ [⟨r.id, r.master, nextEdge s + 3, st, []⟩] } }
      | none =>
        let lost := scLost s r
        let (st, ds, s) := if lost then (stRefused, [], s) else portBAccess s b r.addr r.master r.acc
        let s := hartServed s b r
        { s with bank := { s.bank with done := s.bank.done ++ [⟨r.id, r.master, nextEdge s + 3, st, ds⟩] } }

/-- Port B of every bank with a request waiting serves one in the cycle of the coming edge, unless a command has already
made it (R121). -/
def portBEdge (s : State) : State := (s.bank.waiting.map (·.1)).foldl portBService s

/-! ### Runs of the queue and DMA engines (R120, R222, R256) -/

/-- The bytes of the next access of a run: 32, 16 or 8 bits, not past the end of the bank. -/
def runChunk (addr left : Nat) : Nat :=
  let n := min left (bankSize - addr % bankSize)
  if 4 ≤ n then 4 else if 2 ≤ n then 2 else 1

/-- A run requests its next access. -/
def runNext (s : State) (m p : Nat) (r : BankRun) : BankRun × State :=
  let n := runChunk r.addr r.left
  let acc := match r.put with
    | some bs => Acc.write (bs.take n)
    | none => Acc.read n
  match bankOf r.addr with
  | some (b, a) =>
    let (id, s) := portBRequest s m p b a acc
    ({ r with id := id }, s)
  | none => (r, s)

/-- A run starts: a read of n bytes, or a write. -/
def runStart (s : State) (m p addr n : Nat) (wraps : Bool) (put : Option (List Byte)) : BankRun × State :=
  runNext s m p { addr := addr, id := 0, left := n, wraps := wraps, got := [], put := put }

/-- What a completion makes of a run. -/
inductive RunEnd where
  | more (r : BankRun)
  | ok (got : List Byte)
  | failed (status : Nat)
  deriving DecidableEq, Repr

/-- The completion of a run's access, if it has come, leaves the bank's list. -/
def runDone (s : State) (r : BankRun) : Option (BDone × State) :=
  match s.bank.done.find? fun d => d.id == r.id && decide (d.due ≤ s.clk.f1) with
  | some d => some (d, { s with bank := { s.bank with done := s.bank.done.filter (·.id != r.id) } })
  | none => none

/-- A run goes on after a completion: its next access, its end, or its failure. -/
def runStep (s : State) (m p : Nat) (r : BankRun) (d : BDone) : RunEnd × State :=
  if d.status ≠ stOk then (.failed d.status, s)
  else
    let n := runChunk r.addr r.left
    let got := r.got ++ d.data
    if r.left ≤ n then (.ok got, s)
    else
      let next := if r.wraps && (r.addr + n) % bankSize == 0 then r.addr + n - bankSize else r.addr + n
      let (r, s) := runNext s m p { r with addr := next, left := r.left - n, got := got, put := r.put.map (·.drop n) }
      (.more r, s)

/-- Every waiting port B request has waited one more F1 cycle: conflict counters by master and partition (R125). -/
def countWaiting (s : State) : State :=
  let add := fun (t : Tbl Nat) (r : BReq) => tmod 0 t (16 * r.master + r.part) fun n => sat 32 (n + 1)
  { s with bank := { s.bank with
      conflict := s.bank.waiting.foldl (fun t e => e.2.foldl add t) s.bank.conflict } }

/-! ### Ownership (R128 to R131) -/

/-- BNK_OWNn as read. -/
def bankOwnWord (s : State) (b : Nat) : Nat :=
  bankPart s b * 4096 + bankMaster s b % 16 * 256 + place (bankBusy s b) 6 + place (bankRetired s b) 5
    + (Config.spareColumns b).val

/-- Why a BNK_OWNn write is refused (R131, R166), in the order DENIED, INVALID, BUSY. -/
def bankOwnCheck (s : State) (b val : Nat) : Option Nat :=
  let m := fld val 11 8
  if bankRetired s b then some stDenied
  else if m ≥ 8 ∨ (2 ≤ m ∧ m ≤ 5 ∧ hartPart s (m - 2) ≠ bankPart s b) then some stInvalid
  else if bankBusy s b || tget 64 s.bank.typed b != 64 then some stBusy
  else none

/-- A BNK_OWNn write takes effect (R129): at once, or through a poison fill with WIPE. -/
def bankOwnApply (s : State) (b val : Nat) : State :=
  let m := fld val 11 8
  if bit val 7 then
    { s with bank := { s.bank with fill := tset none s.bank.fill b (some ⟨m, none, s.clk.f1⟩) } }
  else { s with bank := { s.bank with master := tset 0 s.bank.master b m } }

/-- A region's four banks begin to cross partitions (R130): contents are unreachable until each fill ends. -/
def crossBanks (s : State) (r old : Nat) : State :=
  (upto (4 * r) 4).foldl
    (fun s b => { s with bank := { s.bank with fill := tset none s.bank.fill b (some ⟨0, some old, s.clk.f1⟩) } }) s

/-- A selector names a bank's contents or error bits in a capture readback (Table 19-5). -/
def selectsBank (sel b : Nat) : Bool :=
  fld sel 31 28 == 0xE && fld sel 27 24 ≥ 8 && 4 * fld sel 19 11 + (fld sel 10 7 - 12) == b
    && decide (12 ≤ fld sel 10 7 ∧ 1 ≤ sel % 128 ∧ sel % 128 ≤ 68)

/-- A capture readback of a bank that began before its wipe is under way: the wipe is deferred (Table 14-5). -/
def wipeDeferred (s : State) (b : Nat) (f : BFill) : Bool :=
  s.mbx.any fun e => e.2.busy && selectsBank e.2.sel.toNat b && decide (e.2.since ≤ f.since)

/-- A handover fill ends (R129, R130): the bank is poison, the new owner takes effect; a crossing bank's wheel is
reset and an OWNER record is written. A BNK_TDM write of the old partition that is still pending stays pending and
applies at the next frame boundary (R41; DESIGN CHOICE, log 106). -/
def bankFillDone (s : State) (b : Nat) : State :=
  match bankFill s b with
  | none => s
  | some f =>
    if wipeDeferred s b f then s else
    let before := bankOwnWord s b
    let s := poisonBank s b
    let s := { s with bank := { s.bank with fill := tset none s.bank.fill b none
                                            master := tset 0 s.bank.master b f.master } }
    match f.oldPart with
    | none => s
    | some _ =>
      let s := setDev s (0x32000 + 4 * b) 0 0
      journal s (engRec 3 (bankPart s b) 0 0x0A stOk b before (bankOwnWord s b)) false 1 .done

/-! ### The commands -/

/-- PORT_B_REQUEST: an address outside the banks reaches no bank. -/
def execPortBRequest (m p addr : Nat) (acc : Acc) (s : State) : Result :=
  match bankOf addr with
  | some (b, a) => .next (portBRequest s m p b a acc).2
  | none => .next s

/-- PORT_B_SERVICE. -/
def execPortBService (b : Nat) (s : State) : Result :=
  .next (if b < 1536 then portBService s b else s)

/-- BANK_FILL_DONE. -/
def execBankFillDone (b : Nat) (s : State) : Result := .next (bankFillDone s b)

end Sys2Proof.Machine
end

