-- ==== Sys2Proof/Machine/Frames.lean ====
section
/-! DEFINITION. Configuration frames: addresses, the layouts of types 0 to 4, and the checks that depend on contents
(R74, R75, R79, R83, R84, R95, R132, R133, R142, R143). -/

namespace Sys2Proof.Machine

/-- The key of a frame: its address without PLANE (Table 7-1). -/
def fkey (type r col f : Nat) : Nat := type * 0x10000000 + r * 0x10000 + col * 0x100 + f

/-- Type, region, column and frame index of a frame key. -/
def fkType (k : Nat) : Nat := fld k 30 28
def fkRegion (k : Nat) : Nat := fld k 24 16
def fkCol (k : Nat) : Nat := fld k 11 8
def fkFrame (k : Nat) : Nat := fld k 6 0

/-- Word w of a frame of a plane; an unlisted frame is clear. -/
def fword (p : Plane) (type r col f w : Nat) : Nat := (nthD 0 (tget [] p.frames (fkey type r col f)) w).toNat

/-- A region's key range in a plane. -/
def inRegion (r k : Nat) : Bool := fkRegion k == r

/-- A region is blank in a plane (R141): none of its frames of types 0 to 4 holds loaded contents. -/
def blank (p : Plane) (r : Nat) : Bool := !p.frames.any fun e => inRegion r e.1

/-- Regions that hold configuration, ascending, without repeats. -/
def configured (p : Plane) : List Nat := p.frames.foldl (fun l e => sins (fkRegion e.1) l) []

/-- A plane without the frames of a region. -/
def clearRegion (p : Plane) (r : Nat) : Plane :=
  { frames := tkeep (fun k => !inRegion r k) p.frames, crcs := tkeep (fun k => !inRegion r k) p.crcs }

/-- The frames of a region copied from one plane to another (R140). -/
def copyRegion (src dst : Plane) (r : Nat) : Plane :=
  let dst := clearRegion dst r
  { frames := (src.frames.filter fun e => inRegion r e.1).foldr (fun e t => tset [] t e.1 e.2) dst.frames
    crcs := (src.crcs.filter fun e => inRegion r e.1).foldr (fun e t => tset 0 t e.1 e.2) dst.crcs }

/-- An edge region (R81). -/
def edgeRegion (r : Nat) : Bool := r % 24 == 0 || r % 24 == 23 || r / 24 == 0 || r / 24 == 15

/-- A byte-wide select: two to a word, the even one low (Table 3-7). -/
def byteSel (w k : Nat) : Nat := if k % 2 = 0 then w % 256 else w / 256

/-- The LUT of an element, 64 bits (Table 3-7). -/
def lutOf (p : Plane) (r t c e : Nat) : Nat :=
  let f := c / 4
  let w := 64 * (c % 4) + 4 * e
  fword p 0 r t f w + fword p 0 r t f (w + 1) * 0x10000 + fword p 0 r t f (w + 2) * 0x100000000
    + fword p 0 r t f (w + 3) * 0x1000000000000

/-- The control word of an element (Tables 3-1 and 3-7). -/
def ctrlOf (p : Plane) (r t c e : Nat) : Nat := fword p 0 r t 8 (16 * c + e)

/-- The X1 select of an output of a cluster (Tables 3-3 and 3-7). -/
def x1Sel (p : Plane) (r t c k : Nat) : Nat :=
  byteSel (fword p 0 r t (4 + c / 4) (64 * (c % 4) + k / 2)) k

/-- The select of an export (R65, Table 3-7). -/
def exportSel (p : Plane) (r t c k : Nat) : Nat := byteSel (fword p 0 r t 9 (8 * c + k / 2)) k

/-- `n` bits from bit b of a packed sequence whose frames of 4,096 bits start at frame f0 (Tables 3-7 and 4-2). -/
def packedBits (p : Plane) (type r col f0 b : Nat) : Nat → Nat
  | 0 => 0
  | n + 1 =>
    let w := fword p type r col (f0 + b / 4096) (b % 4096 / 16)
    (w / 2 ^ (b % 16)) % 2 + 2 * packedBits p type r col f0 (b + 1) n

/-- The select of an X2 output (Table 3-7). -/
def x2Sel (p : Plane) (r t k : Nat) : Nat := packedBits p 0 r t 10 (9 * k) 9

/-- The select of an X3 output (Table 4-2). -/
def x3Sel (p : Plane) (r k : Nat) : Nat := packedBits p 3 r 0 1 (11 * k) 11

/-- The select of an in lane (Table 4-2). -/
def laneSel (p : Plane) (r l : Nat) : Nat := fword p 3 r 0 0 l % 4096

/-- The type-4 word of an edge-in bit (0 to 63) or of an edge-out bit (64 to 127) (R95). -/
def x5Word (p : Plane) (r w : Nat) : Nat := fword p 4 r 0 0 w

/-- The peripheral number of a type-4 word with EN = 1 (R95). -/
def x5Num (p : Plane) (r w : Nat) : Option Nat :=
  let x := x5Word p r w
  if bit x 15 then some (x % 8192) else none

/-- Word w of a site's type-2 frame (R133, R134). -/
def siteWord (p : Plane) (r t w : Nat) : Nat := fword p 2 r t 0 w

/-- EN of a site; a blank region's sites behave as with EN = 0 (R133, R141). -/
def siteEn (p : Plane) (r t : Nat) : Bool := bit (siteWord p r t 0) 13

/-- F1 cycles between edges of a domain code (Table 3-1). -/
def domPeriod (c : Nat) : Nat := 2 ^ (c % 4)

/-- The site domain (R133). -/
def siteDom (p : Plane) (r t : Nat) : Nat := fld (siteWord p r t 0) 15 14

/-! ### Checks as a frame arrives (R75, R132, R133) -/

/-- The select of an X2 output that is an unconnected pin of a memory site, IN[47:34]: any is accepted and ignored
(Table 3-6). -/
def x2Unconnected (t k : Nat) : Bool := decide (12 ≤ t ∧ 866 ≤ k)

/-- Every X2 select of a column that the two listed frames hold whole is valid; a select across both frames is
checked once both have arrived. -/
def x2Valid (p : Plane) (r t : Nat) (ks : List Nat) : Bool :=
  ks.all fun k => x2Unconnected t k || decide (x2Sel p r t k < 354)

/-- The contents of a type-0 frame are valid (R75). `have10` and `have11` say which of the packed frames of the column
have been written. -/
def type0Valid (p : Plane) (r t f : Nat) (have10 have11 : Bool) : Bool :=
  if f < 4 then true
  else if f < 8 then
    (List.range 256).all fun w => let x := fword p 0 r t f w; decide (x % 256 ≤ 81 ∧ x / 256 ≤ 81)
  else if f = 8 then
    ((List.range 256).all fun w => let x := fword p 0 r t 8 w; !(bit x 12 && !bit x 13))
      && fld (fword p 0 r t 8 0) 11 10 != 0
  else if f = 9 then
    ((List.range 128).all fun w => let x := fword p 0 r t 9 w; decide (x % 256 ≤ 33 ∧ x / 256 ≤ 33))
      && (upto 128 128).all fun w => fword p 0 r t 9 w == 0
  else
    let cross := !(have10 && have11) || x2Valid p r t [455]
    if f = 10 then cross && x2Valid p r t (List.range 455)
    else cross && x2Valid p r t (upto 456 424)
      && packedBits p 0 r t 10 7920 272 == 0

/-- The contents of a type-2 frame are valid: reserved bits are zero (R133, R134). -/
def type2Valid (p : Plane) (r t : Nat) : Bool :=
  siteWord p r t 0 % 0x2000 == 0
    && (if t < 12 then siteWord p r t 1 % 0x400 == 0 && (upto 4 252).all fun w => siteWord p r t w == 0
        else (upto 1 255).all fun w => siteWord p r t w == 0)

/-! ### Checks of the whole configuration (R93, Tables 4-5 and 4-7) -/

/-- Where a failed check lies: WHERE and INDEX of BRG_REJ. -/
abbrev Reject := Nat × Nat

/-- First failure of a list of checks. -/
def firstSome {α β : Type} (f : α → Option β) : List α → Option β
  | [] => none
  | a :: as => match f a with
    | some b => some b
    | none => firstSome f as

/-- The in-lane row: invalid selects and reserved bits, by destination. -/
def checkLanes (p : Plane) (rs : List Nat) : Option Reject :=
  firstSome (fun r =>
    match firstSome (fun l =>
        let w := fword p 3 r 0 0 l
        let high := l = 0 ∧ (upto 8 248).any (fun x => fword p 3 r 0 0 x != 0)
        if w % 4096 > 3072 ∨ w ≥ 4096 ∨ high then some (0, 8 * r + l) else none) (List.range 8) with
    | some x => some x
    | none => none) rs

/-- The X3 row: invalid selects, edge inputs of interior regions, reserved bits. Outputs 1,152 to 1,215 of interior
regions are not checked (R81). -/
def checkX3 (p : Plane) (rs : List Nat) : Option Reject :=
  firstSome (fun r =>
    let n := if edgeRegion r then 1216 else 1152
    let bad := (List.range n).any fun k =>
      let s := x3Sel p r k
      decide (s > 1217) || (!edgeRegion r && decide (1152 ≤ s ∧ s < 1216))
    if bad || packedBits p 3 r 0 1 13376 3008 != 0 then some (1, r) else none) rs

/-- The partition that a Bridge source belongs to. -/
def sourcePart (s : State) (src : Nat) : Nat := regionPart s (src / 8)

/-- BRG_GATE grants a source to a partition (R88, R90). -/
def gateGrants (s : State) (src p : Nat) : Bool :=
  (List.range 64).any fun k =>
    let w := (dev s (0x21000 + 4 * k) 0xFFFF).toNat
    w % 4096 == src && w / 4096 == p

/-- The cross-partition row (R88). -/
def checkGates (s : State) (p : Plane) (rs : List Nat) : Option Reject :=
  firstSome (fun r => firstSome (fun l =>
    let src := laneSel p r l
    if src < 3072 ∧ sourcePart s src ≠ regionPart s r ∧ !gateGrants s src (regionPart s r) then some (0, 8 * r + l)
    else none) (List.range 8)) rs

/-- The owner of an X5 number toward the fabric, or `none` where invalid (Tables 4-6 and 4-7). -/
def x5SrcPart (s : State) (n : Nat) : Option Nat :=
  if n < 256 then some (pinPart s n)
  else if n < 896 then some (evtOwner s (n - 256))
  else if n < 6016 then some (fspPart s ((n - 896) / 20))
  else none

/-- The owner of an X5 number from the fabric. -/
def x5DstPart (s : State) (n : Nat) : Option Nat :=
  if n < 256 then some (pinPart s n)
  else if n < 512 then some (pinPart s (n - 256))
  else if n < 1152 then some (evtOwner s (n - 512))
  else if n < 2176 then some (fspPart s ((n - 1152) / 4))
  else none

/-- A destination is named by an edge-out bit of another region or another bit of this one (R96). Of two entries that
name one destination Table 4-7 does not say which fails; here both do, and the row reports the region checked first
(DESIGN CHOICE, log 100). -/
def dstTwice (p : Plane) (rs : List Nat) (r w n : Nat) : Bool :=
  rs.any fun r' => (upto 64 64).any fun w' => !(r' == r && w' == w) && x5Num p r' w' == some n

/-- The X5 row, region by region (Table 4-7). -/
def checkX5 (s : State) (p : Plane) (rs all : List Nat) : Option Reject :=
  firstSome (fun r =>
    let bad := (List.range 128).any fun w =>
      let x := x5Word p r w
      fld x 14 13 != 0 ||
        (bit x 15 &&
          let o := if w < 64 then x5SrcPart s (x % 8192) else x5DstPart s (x % 8192)
          o != some (regionPart s r) || (decide (64 ≤ w) && dstTwice p all r w (x % 8192)))
    if edgeRegion r && (bad || (upto 128 128).any fun w => x5Word p r w != 0) then some (2, r) else none) rs

/-- The virtual die of a region (Table 1-7). -/
def vdie (r : Nat) : Nat := r / 48

/-- The crossing in-lane selects of a plane, as (source die, destination die), in ascending order (R99). -/
def crossings (p : Plane) (rs : List Nat) : List (Nat × Nat) :=
  rs.foldr (fun r l => (List.range 8).foldr (fun n l =>
    let src := laneSel p r n
    if src < 3072 ∧ vdie (src / 8) ≠ vdie r then (vdie (src / 8), vdie r) :: l else l) l) []

/-- The virtual-die row under ET7-n: at most 96 lanes out and 96 in (R32, R99). -/
def checkDies (p : Plane) (rs : List Nat) (pers : Nat) : Option Reject :=
  if pers = 0 then none
  else
    let x := crossings p rs
    firstSome (fun k =>
      if (x.filter (·.1 == k)).length > 96 ∨ (x.filter (·.2 == k)).length > 96 then some (3, k) else none) (List.range 8)

/-- The frame-address row: type-3 and type-4 frames outside Table 7-2 that were let through as they arrived (R143). -/
def badAddress (k : Nat) : Bool :=
  (fkType k == 3 && (fkCol k != 0 || decide (fkFrame k > 4)))
    || (fkType k == 4 && (fkCol k != 0 || fkFrame k != 0 || !edgeRegion (fkRegion k)))

/-- The checks of R93 in the row order of Table 4-5, over the regions a load writes (`rs`) and the configuration as it
would stand (`p`, holding regions `all`). -/
def checkPlane (s : State) (p : Plane) (rs all written : List Nat) (pers : Nat) : Option Reject :=
  match checkLanes p rs with
  | some x => some x
  | none => match checkX3 p rs with
  | some x => some x
  | none => match firstSome (fun r => if written.any (fun k => inRegion r k && badAddress k) then some (4, r) else none) rs with
  | some x => some x
  | none => match checkGates s p all with
  | some x => some x
  | none => match checkX5 s p all all with
  | some x => some x
  | none => checkDies p all pers

end Sys2Proof.Machine
end

