-- ==== Sys2Proof/Machine/Fabric.lean ====
section
/-! DEFINITION. The fabric between two F1 edges and at an edge: LUTs, carry chains, crossbars, flip-flops, X3, the
Bridge, X5 and probes (R55 to R67, R77 to R86, R92 to R100, R406). A signal is `none` where R77 leaves it undefined. -/

namespace Sys2Proof.Machine

/-- A fabric signal: `none` is undefined. -/
abbrev Sig := Option Bool

/-- The key of a flip-flop. -/
def ffKey (r t c e n : Nat) : Nat := ((r * 16 + t) * 16 + c) * 32 + 2 * e + n

/-- The key of a site. -/
def siteKey (r t : Nat) : Nat := r * 16 + t

/-- OUT of the hard site in a tile: a memory site's in tiles 12 to 15, a MAC site's in the others (R7, Table 3-6). -/
def siteOut (s : State) (r t : Nat) : Nat :=
  if !siteEn s.fab.active r t then 0
  else if t < 12 then ((tget {} s.fab.mac (siteKey r t)).out).toNat
  else
    let o := (siteOf s (4 * r + (t - 12))).out
    o.data.toNat + place o.ue 16 + place o.cor 17

/-- The X3 register of an output. -/
def x3Reg (s : State) (r k : Nat) : Bool := tget false s.fab.x3 (r * 1216 + k)

/-- One bit of a LUT at an index. -/
def lutBit (lut : Nat) (i : List Bool) : Bool :=
  lut.testBit (i.foldr (fun b n => b.toNat + 2 * n) 0)

/-- All of a list of signals, or undefined. -/
def allSig : List Sig → Option (List Bool)
  | [] => some []
  | x :: xs => match x, allSig xs with
    | some b, some bs => some (b :: bs)
    | _, _ => none

/-- What evaluation asks for in a tile. -/
inductive Node where
  /-- an element's output O0 or O1 -/
  | out (c e n : Nat)
  /-- a combinational result Z0 or Z1 -/
  | z (c e n : Nat)
  /-- a carry out -/
  | co (c e : Nat)
  /-- a carry in -/
  | ci (c e : Nat)
  /-- an X1 output -/
  | x1 (c k : Nat)
  /-- an X2 output -/
  | x2 (k : Nat)
  deriving DecidableEq, Repr

/-- How long after their launching edge a signal's changes arrive: one more than the longest delay in ps, for launching
registers of period 1, 2, 4 and 8; 0 where no register of that period launches a change (R102, R103). -/
abbrev Arrival := List Nat

/-- Nothing launches a change of the signal. -/
abbrev Arrival.none : Arrival := [0, 0, 0, 0]

/-- The number of a launching register in `Fabric.moved`: a flip-flop, an X3 register, a bit of a hard site's OUT. -/
abbrev moveFf (key : Nat) : Nat := key
abbrev moveX3 (key : Nat) : Nat := 0x20000000 + key
abbrev moveOut (r t i : Nat) : Nat := 0x40000000 + 32 * siteKey r t + i

/-- A register of period j launches a change toward a capture of period k at the coming edge (clock-to-Q is inside the
budget, R103): it changed at an edge inside the window of min(j, k) F1 cycles that ends there (R105). -/
def Arrival.launch (s : State) (number j k : Nat) : Arrival :=
  let m := tget 0 s.fab.moved number
  [1, 2, 4, 8].map fun i => if i = j ∧ m ≠ 0 ∧ nextEdge s ≤ m + min j k then 1 else 0

/-- Through an item of a delay (R102). -/
def Arrival.plus (a : Arrival) (d : Nat) : Arrival := a.map fun x => if x = 0 then 0 else x + d

/-- The later of two arrivals. -/
def Arrival.max (a b : Arrival) : Arrival := List.zipWith Nat.max a b

/-- A segment is over its budget at a capturing register of a period (R103, Table 5-2). -/
def Arrival.late (a : Arrival) (k : Nat) : Bool :=
  (List.zipWith (fun j x => decide (x - 1 > 1667 * min j k - 105)) [1, 2, 4, 8] a).any id

/-- A signal with its arrival. -/
structure Timed where
  val : Sig
  arr : Arrival
  deriving DecidableEq, Repr

/-- Several signals together. -/
def allTimed (l : List Timed) : Option (List Bool) × Arrival :=
  (allSig (l.map (·.val)), l.foldl (fun a x => a.max x.arr) Arrival.none)

/-- A constant. -/
def constSig (b : Bool) : Timed := ⟨some b, Arrival.none⟩

/-- A range of bits of an active frame holds a bad cell (R182). -/
def badBits (s : State) (key b n : Nat) : Bool := (tget [] s.fab.unrep key).any fun i => decide (b ≤ i ∧ i < b + n)

/-- The same for bits of a packed sequence whose frames start at frame f0. -/
def badPacked (s : State) (type r col f0 b n : Nat) : Bool :=
  (upto b n).any fun i => badBits s (fkey type r col (f0 + i / 4096)) (i % 4096) 1

/-- The cells that configure a node hold a bad one (R182, Table 3-7). -/
def badNode (s : State) (r t : Nat) : Node → Bool
  | .out c e _ | .ci c e => badBits s (fkey 0 r t 8) (16 * (16 * c + e)) 16
  | .z c e _ | .co c e => badBits s (fkey 0 r t 8) (16 * (16 * c + e)) 16
      || badBits s (fkey 0 r t (c / 4)) (16 * (64 * (c % 4) + 4 * e)) 64
  | .x1 c k => badBits s (fkey 0 r t (4 + c / 4)) (1024 * (c % 4) + 8 * k) 8
  | .x2 k => badPacked s 0 r t 10 (9 * k) 9
      || (let sel := x2Sel s.fab.active r t k
          decide (sel < 256) && badBits s (fkey 0 r t 9) (128 * (sel / 16) + 8 * (sel % 16)) 8)

/-- The value of a node of a tile, and the arrival of the changes that a capture of period `cap` at the coming edge
could meet, by the items of Table 5-1 on the way. A path without a flip-flop visits a node at most once, so fuel above
the number of nodes of a tile runs out only in a combinational loop, whose signals are undefined for as long as it is
configured, whatever its LUTs hold (R77). A node that bad cells configure is undefined (R182). -/
def evalNode (s : State) (r t cap : Nat) : Nat → Node → Timed
  | 0, _ => ⟨none, Arrival.none⟩
  | fuel + 1, n =>
    let p := s.fab.active
    let rec_ := evalNode s r t cap fuel
    if badNode s r t n then ⟨none, Arrival.none⟩
    else
    match n with
    | .out c e i =>
      let w := ctrlOf p r t c e
      if bit w (if i = 0 then 9 else 8) then
        let key := ffKey r t c e i
        ⟨some (tget false s.fab.ff key), Arrival.launch s (moveFf key) (domPeriod (fld w 15 14)) cap⟩
      else rec_ (.z c e i)
    | .z c e i =>
      let w := ctrlOf p r t c e
      let lut := lutOf p r t c e
      let a := (List.range 5).map fun j => rec_ (.x1 c (8 * e + j))
      if !bit w 13 then
        let (bs, at_) := allTimed (a ++ [rec_ (.x1 c (8 * e + 5))])
        ⟨bs.map (lutBit lut), at_.plus 95⟩
      else
        let (bs, at_) := allTimed a
        let l5a := bs.map (lutBit (lut % 0x100000000))
        let l5b := bs.map (lutBit (lut / 0x100000000))
        if !bit w 12 then ⟨if i = 0 then l5a else l5b, at_.plus 85⟩
        else if i = 0 then
          let y := rec_ (.ci c e)
          ⟨match l5a, y.val with
            | some x, some y => some (x != y)
            | _, _ => none, ((at_.plus 85).max y.arr).plus 18⟩
        else rec_ (.co c e)
    | .co c e =>
      let w := ctrlOf p r t c e
      let ci := rec_ (.ci c e)
      if !bit w 12 then ⟨ci.val, ci.arr.plus 18⟩
      else
        let lut := lutOf p r t c e
        let (bs, at_) := allTimed ((List.range 5).map fun j => rec_ (.x1 c (8 * e + j)))
        ⟨match bs.map (lutBit (lut % 0x100000000)), ci.val with
          | some true, some y => some y
          | some false, some _ => bs.map (lutBit (lut / 0x100000000))
          | _, _ => none, ((at_.plus 85).max ci.arr).plus 18⟩
    | .ci c e =>
      match fld (ctrlOf p r t c e) 11 10 with
      | 0 => if e ≠ 0 then rec_ (.co c (e - 1)) else if c ≠ 0 then rec_ (.co (c - 1) 15) else constSig false
      | 1 => constSig false
      | 2 => constSig true
      | _ => rec_ (.x1 c (8 * e + 5))
    | .x1 c k =>
      let sel := x1Sel p r t c k
      if sel < 32 then
        let x := rec_ (.out c (sel / 2) (sel % 2))
        { x with arr := x.arr.plus 140 }
      else if sel < 80 then
        let x := rec_ (.x2 (48 * c + (sel - 32)))
        { x with arr := x.arr.plus 390 }
      else constSig (sel == 81)
    | .x2 k =>
      let sel := x2Sel p r t k
      if sel < 256 then
        let x := exportSel p r t (sel / 16) (sel % 16)
        if x < 32 then rec_ (.out (sel / 16) (x / 2) (x % 2)) else constSig (x == 33)
      else if sel < 320 then
        let key := r * 1216 + (64 * t + (sel - 256))
        ⟨some (tget false s.fab.x3 key), Arrival.launch s (moveX3 key) 1 cap⟩
      else if sel < 352 then ⟨some (bit (siteOut s r t) (sel - 320)), Arrival.launch s (moveOut r t (sel - 320)) 1 cap⟩
      else constSig (sel == 353)

/-- Fuel above the number of nodes of a tile. -/
abbrev tileFuel : Nat := 6144

/-- The value of a node as a register of a period captures it, after a last route: undefined where a change that
arrives through a segment over its budget was launched in the window before the capture (R105). -/
def sig (s : State) (r t : Nat) (n : Node) (route period : Nat) : Sig :=
  let x := evalNode s r t period tileFuel n
  if (x.arr.plus route).late period then none else x.val

/-- The pins of a tile's hard site that are connected: IN[47:0] of a MAC site, IN[33:0] of a memory site (Table 3-6). -/
def sitePinCount (t : Nat) : Nat := if t < 12 then 48 else 34

/-- IN of a tile's hard site as the fabric drives it, unconnected pins 0: `none` where a connected bit, or what EN and
the domain of the site are, is undefined (R432). -/
def sitePins (s : State) (r t : Nat) : Option (BitVec 48) :=
  if badBits s (fkey 2 r t 0) 0 32 then none
  else
    (allSig ((List.range (sitePinCount t)).map fun i =>
      sig s r t (.x2 (832 + i)) 390 (domPeriod (siteDom s.fab.active r t)))).map
        fun bs => BitVec.ofNat 48 (bs.foldr (fun b n => b.toNat + 2 * n) 0)

/-- An undefined signal captured by the register of a key: a free bit (R77, R105). -/
def freeAt (n key : Nat) : Bool := Config.freeBit n key

/-- A captured signal. -/
def sampled (n key : Nat) : Sig → Bool
  | some b => b
  | none => freeAt n key

/-- The value a flip-flop takes at an edge of its domain (R59). -/
def ffNext (s : State) (n r t c e i : Nat) : Bool :=
  let w := ctrlOf s.fab.active r t c e
  let key := ffKey r t c e i
  let k := domPeriod (fld w 15 14)
  let sr := if badBits s (fkey 0 r t 8) (16 * (16 * c + e)) 16 then none
    else if bit w (3 - i) then sig s r t (.x1 c (8 * e + 7)) 0 k else some false
  let ce := if bit w (5 - i) then sig s r t (.x1 c (8 * e + 6)) 0 k else some true
  match sr, ce with
  | some true, _ => bit w (1 - i)
  | some false, some false => tget false s.fab.ff key
  | some false, some true =>
    sampled n key (if bit w (7 - i) then sig s r t (.x1 c (8 * e + 5)) 0 k else sig s r t (.z c e i) 0 k)
  | _, _ => freeAt n key

/-- The flip-flops of a region after an edge: those of domains that have an edge now (R59). -/
def ffStep (s : State) (n e1 r : Nat) (ff : Tbl Bool) : Tbl Bool :=
  (List.range 16).foldl (fun ff t => (List.range 16).foldl (fun ff c => (List.range 16).foldl (fun ff e =>
    if e1 % domPeriod (fld (ctrlOf s.fab.active r t c e) 15 14) = 0 then
      tset false (tset false ff (ffKey r t c e 0) (ffNext s n r t c e 0)) (ffKey r t c e 1) (ffNext s n r t c e 1)
    else ff) ff) ff) ff

/-- A stage of a Bridge source. -/
def bridgeStage (s : State) (st src : Nat) : Word := tget 0 s.fab.bridge (st * 3072 + src)

/-- A connection crosses virtual dies (R99). -/
def crosses (s : State) (src r : Nat) : Bool := s.fab.pers != 0 && vdie (src / 8) != vdie r

/-- The lane value that a region receives: the last stage, or 0 when idle, when the source region is blank or when its
partition is disabled (R84, R92, R100). -/
def laneIn (s : State) (r l : Nat) : Word :=
  let src := laneSel s.fab.active r l
  if src ≥ 3072 ∨ blank s.fab.active (src / 8) ∨ !enabled s (sourcePart s src) then 0
  else bridgeStage s (if crosses s src r then 8 else 4) src

/-- An X3 input just before an edge (Table 4-1). An up line whose X2 select names an X3 down line is valid (R67) though
Table 3-5 lists no such route: here it passes the line on, over the first part of a region route (DESIGN CHOICE, log
99). -/
def x3In (s : State) (r k : Nat) : Sig :=
  if k < 1024 then sig s r (k / 64) (.x2 (768 + k % 64)) 280 1
  else if k < 1152 then
    if badBits s (fkey 3 r 0 0) (16 * ((k - 1024) / 16)) 16 then none
    else some ((laneIn s r ((k - 1024) / 16)).getLsbD (k % 16))
  else some (tget false s.fab.x5in (r * 64 + (k - 1152)))

/-- The value an X3 output register captures (R79, R80). -/
def x3Next (s : State) (n r k : Nat) : Bool :=
  let sel := x3Sel s.fab.active r k
  if badPacked s 3 r 0 1 (11 * k) 11 then freeAt n (0x20000000 + r * 1216 + k)
  else if sel < 1216 then sampled n (0x20000000 + r * 1216 + k) (x3In s r sel)
  else sel == 1217

/-- The X3 registers of a region after an edge. -/
def x3Step (s : State) (n r : Nat) (x : Tbl Bool) : Tbl Bool :=
  (List.range 1216).foldl (fun x k => tset false x (r * 1216 + k) (x3Next s n r k)) x

/-- The out lane of a source as its region's X3 holds it. -/
def laneOut (s : State) (src : Nat) : Word :=
  BitVec.ofNat 16 ((List.range 16).foldr (fun b n => (x3Reg s (src / 8) (1024 + 16 * (src % 8) + b)).toNat + 2 * n) 0)

/-- The Bridge stages of a region's out lanes after an edge (R86, R100). -/
def bridgeStep (s : State) (r : Nat) (t : Tbl Word) : Tbl Word :=
  (upto (8 * r) 8).foldl (fun t src =>
    (upto 1 (if s.fab.pers = 0 then 4 else 8)).foldl (fun t st =>
      tset 0 t (st * 3072 + src) (if st = 1 then laneOut s src else bridgeStage s (st - 1) src)) t) t

/-- The pad level that the pad input register and PIN_IN see: 0 for a group without a class (R344). -/
def padLevel (s : State) (p : Nat) : Bool :=
  let c := fld s.pins.vstat.toNat (2 * (p / 16) + 1) (2 * (p / 16))
  (pinOf s p).level && (c == 1 || c == 2)

/-- An X5 source toward the fabric (Table 4-6). -/
def x5Src (s : State) (e1 n : Nat) : Bool :=
  if n < 256 then padLevel s n
  else if n < 896 then s.ev.pulses.any fun e => e.1 == n - 256 && e.2 + 1 == e1
  else ((tget {} s.qe.fsp ((n - 896) / 20)).sig).getLsbD ((n - 896) % 20)

/-- The X5 registers of an edge region after an edge: inward from their sources, outward from X3 (R95, R97); a bit whose
word holds a bad cell is free (R182). -/
def x5Step (s : State) (n e1 r : Nat) (f : Fabric) : Fabric :=
  if !edgeRegion r then f
  else
    (List.range 64).foldl (fun f b =>
      { f with
        x5in := tset false f.x5in (r * 64 + b)
          (if badBits s (fkey 4 r 0 0) (16 * b) 16 then freeAt n (0x38000000 + r * 128 + b)
            else match x5Num s.fab.active r b with
            | some n => x5Src s e1 n
            | none => false)
        x5out := tset false f.x5out (r * 64 + b)
          (if badBits s (fkey 4 r 0 0) (16 * (64 + b)) 16 then freeAt n (0x38000000 + r * 128 + 64 + b)
            else match x5Num s.fab.active r (64 + b) with
            | some _ => x3Reg s r (1152 + b)
            | none => false) }) f

/-- The fabric after the coming edge, over the regions whose user clocks run (R59, R80, R82, R86, R97). -/
def fabricStep (s : State) (n e1 : Nat) (rs : List Nat) : Fabric :=
  rs.foldl (fun f r =>
    x5Step s n e1 r { f with ff := ffStep s n e1 r f.ff, x3 := x3Step s n r f.x3, bridge := bridgeStep s r f.bridge })
    s.fab

/-- A pin as changed. -/
def setPin (s : State) (p : Nat) (x : Pin) : State :=
  { s with pins := { s.pins with pin := tset {} s.pins.pin p x } }

/-- The X5 out register whose destination number is n; a destination that no edge-out bit of a loaded region names takes
0 (R96). -/
def x5Level (s : State) (n : Nat) : Bool :=
  (configured s.fab.active).any fun r => edgeRegion r && (List.range 64).any fun b =>
    x5Num s.fab.active r (64 + b) == some n && tget false s.fab.x5out (r * 64 + b)

/-- The fabric event lanes that a region's edge-out bits name take their levels (R97, R357). -/
def x5Effects (s : State) (r : Nat) : State :=
  (List.range 64).foldl (fun s b =>
    match x5Num s.fab.active r (64 + b) with
    | none => s
    | some n =>
      if 512 ≤ n ∧ n < 1152 then levelEv s (n - 512) (tget false s.fab.x5out (r * 64 + b))
      else s) s

/-- Fabric event lanes that no edge-out bit names any more are inactive (R96). -/
def lanesSettle (s : State) : State :=
  (s.ev.active.filter fun v => decide (v < 640) && !x5Level s (512 + v)).foldl (fun s v => levelEv s v false) s

/-- Results of captures two edges ago appear on OUT (R69). -/
def siteOuts (s : State) (e1 : Nat) : State :=
  let mac := s.fab.mac.foldl (fun t e =>
    let due := e.2.pend.filter (·.1 ≤ e1)
    match due.getLast? with
    | none => t
    | some d => tset {} t e.1 { e.2 with out := d.2, pend := e.2.pend.filter fun x => !(x.1 ≤ e1) }) s.fab.mac
  let site := s.fab.site.foldl (fun t e =>
    let due := e.2.pend.filter (·.1 ≤ e1)
    match due.getLast? with
    | none => t
    | some d => tset {} t e.1 { e.2 with out := d.2, pend := e.2.pend.filter fun x => !(x.1 ≤ e1) }) s.fab.site
  { s with fab := { s.fab with mac := mac, site := site } }

/-- Registers that differ between two tables changed at an F1 edge. -/
def movedKeys {α : Type} [DecidableEq α] (d : α) (number : Nat → Nat) (e : Nat) (a b : Tbl α) (m : Tbl Nat) : Tbl Nat :=
  (a ++ b).foldl (fun m x => if tget d a x.1 = tget d b x.1 then m else tset 0 m (number x.1) e) m

/-- s with the launching registers noted that changed at F1 edge e since a state (R105); older notes than 8 edges go. -/
def noteMoves (was : State) (e : Nat) (s : State) : State :=
  let m := s.fab.moved.filter fun x => decide (e ≤ x.2 + 8)
  let m := movedKeys false moveFf e was.fab.ff s.fab.ff m
  let m := movedKeys false moveX3 e was.fab.x3 s.fab.x3 m
  let sites := was.fab.mac.map (·.1) ++ s.fab.mac.map (·.1)
    ++ (was.fab.site.map (·.1) ++ s.fab.site.map (·.1)).map fun b => siteKey (b / 4) (12 + b % 4)
  let m := sites.foldl (fun m k => (List.range 32).foldl (fun m i =>
    if bit (siteOut was (k / 16) (k % 16)) i == bit (siteOut s (k / 16) (k % 16)) i then m
    else tset 0 m (moveOut (k / 16) (k % 16) i) e) m) m
  { s with fab := { s.fab with moved := m } }

/-- The output of a region's probe multiplexer (R406). -/
def probeOut (s : State) (n r k : Nat) : Bool :=
  let sel := (tget 0x0980 s.fab.probe (r * 16 + k)).toNat
  if blank s.fab.active r then false
  else if sel < 1216 then sampled n (0x30000000 + r * 16 + k) (x3In s r sel)
  else if sel < 2432 then x3Reg s r (sel - 1216)
  else false

/-- A probe line's register (R407). -/
def probeLine (s : State) (l : Nat) : Nat := (dev s (0xEE100 + 4 * l) 0).toNat

/-- The value a pin of function 6 drives: its line's, while EN is 1 and the region is the pin's partition's or a
session is active (R407). -/
def probePad (s : State) (p l : Nat) : Bool :=
  let w := probeLine s l
  bit w 15 && (regionPart s (fld w 12 4) == pinPart s p || session s) && (tget (false, false) s.fab.probePipe l).2

/-- Probe lines and pads after an edge: a line's value reaches the pad register two edges after its capture (R406). -/
def probeStep (s : State) (n : Nat) : State :=
  let used := s.pins.pin.filter fun e => e.2.func == 6
  let s1 := used.foldl (fun s' e => setPin s' e.1 { pinOf s' e.1 with out := probePad s e.1 (e.2.aux.toNat % 64), oe := true }) s
  let pipe := used.foldl (fun t e =>
    let l := e.2.aux.toNat % 64
    let w := probeLine s l
    tset (false, false) t l (probeOut s n (fld w 12 4) (w % 16), (tget (false, false) s.fab.probePipe l).1)) s.fab.probePipe
  { s1 with fab := { s1.fab with probePipe := pipe } }

/-- The FSPs drive their next word toward the fabric (R220, R221); those of a frozen partition hold (Table 19-4), and
all are gated outside M5. -/
def fspStep (s : State) : State :=
  if s.mode != .m5 || gated s then s
  else
    let live := s.qe.fsp.filter fun e => enabled s (fspPart s e.1) && !frozen s (fspPart s e.1)
    let next := fun (t : Tbl Fsp) (e : Nat × Fsp) =>
      tset {} t e.1 { e.2 with sig := e.2.outq.headD 0, outq := e.2.outq.drop 1 }
    { s with qe := { s.qe with fsp := live.foldl next s.qe.fsp } }

/-- Regions whose user registers take an edge now: configured, of a partition whose user clocks run (R82, R141). -/
def runningRegions (s : State) : List Nat :=
  (configured s.fab.active).filter fun r => userRuns s (regionPart s r)

/-- The F1 edge just taken is a capture scope's freeze edge, or the next one its resume edge (R401, R402). A slot edge on
the same edge comes first: it gives the edge its SYSTIME. -/
def capEdgeDue (s : State) (c : Cap) : Bool :=
  decide (s.clk.k < s.clk.slotLen) && match c with
  | .armed a t => s.mode == .m5 && decide (a ≤ s.clk.f1) && decide (t.getD 0 ≤ sysNow s)
  | .frozen _ => false
  | .resuming f a => decide (a ≤ s.clk.f1 + 1) && s.clk.f1 % 8 == f % 8

/-- The F1 edge just taken is the swap edge of a released swap: an edge of CLK_F8 (R173). -/
def swapEdgeDue (s : State) (q : SwapReq) : Bool := q.released && s.clk.f1 % 8 == 0

/-- Something that belongs to the F1 edge just taken is still to be carried out: a frame boundary, a freeze or resume
edge, a swap edge, the beginning of low-power entry at a CLK_M edge (R173, R196, R363, R401, R402). -/
def edgeHolds (s : State) : Bool :=
  s.clk.boundaryDue || s.cap.scopes.any (fun e => capEdgeDue s e.2)
    || s.swp.groups.any (fun e => e.2.sched.any (swapEdgeDue s)) || (entryDue s && s.clk.f1 % 2 == 0)

/-- F1 edges pass: not in M0, M1, M8 and M9, not past the slot's end, and not while the edge before still has something to
be carried out. -/
def edgeDue (s : State) : Bool :=
  s.clk.started && s.mode.busUp && !edgeHolds s && decide (s.clk.k < s.clk.slotLen)

/-- Entries that the fabric announces on DBCNT of an FSP in this F1 cycle (R97, R219). -/
def dbcntIn (s : State) (k : Nat) : Nat :=
  (x5Level s (1152 + 4 * k + 1)).toNat + 2 * (x5Level s (1152 + 4 * k + 2)).toNat

/-- QE_FSPBk.EN. -/
def fspEn (s : State) (k : Nat) : Bool := bit (dev s (0x41000 + 4 * k) 0).toNat 15

/-- An FSP counts the announcement of this F1 cycle, once: its ring is enabled and its partition's user clocks run
(R222, Table 19-4). -/
def fspCounts (s : State) (k : Nat) : Bool :=
  decide (k < 256) && fspEn s k && userRuns s (fspPart s k) && !s.fab.announced.contains k

/-- The announcement of this F1 cycle is counted (R222). -/
def fspAnnounce (s : State) (k : Nat) : State :=
  if fspCounts s k then
    let f := tget {} s.qe.fsp k
    { s with
      qe := { s.qe with fsp := tset {} s.qe.fsp k { f with unread := f.unread + dbcntIn s k } }
      fab := { s.fab with announced := sins k s.fab.announced } }
  else s

/-- The FSPs that a DBCNT signal at 1 names. -/
def announcing (s : State) : List Nat :=
  ((configured s.fab.active).flatMap fun r => (List.range 64).filterMap fun b =>
    (x5Num s.fab.active r (64 + b)).bind fun n =>
      if 1152 ≤ n ∧ (n % 4 = 1 ∨ n % 4 = 2) then some ((n - 1152) / 4) else none)

/-- One F1 edge. -/
def userClockEdge (s : State) : State :=
  let s := (announcing s).foldl fspAnnounce s
  let was := s
  let e1 := s.clk.f1 + 1
  let n := s.freeCtr
  let rs := runningRegions s
  let f := fabricStep s n e1 rs
  let s := fspStep (countWaiting (probeStep (draw s).2 n))
  let s := { s with fab := { f with probePipe := s.fab.probePipe, captured := [], announced := [] } }
  let s := rs.foldl x5Effects s
  let s := noteMoves was e1 (siteOuts s e1)
  { s with
    clk := { s.clk with f1 := e1, k := s.clk.k + 1 }
    ev := { s.ev with pulses := s.ev.pulses.filter fun e => !(e.2 + 1 ≤ e1) } }

end Sys2Proof.Machine
end

