-- ==== Sys2Proof/Machine/FlashArray.lean ====
section
/-! DEFINITION. The soundboard flash array as its readers see it: bytes, words, sector status and bad blocks (R409,
R410, R414, R416, R417). -/

namespace Sys2Proof.Machine

/-- A flash byte; an erased byte reads 0xFF (R409). -/
def flByte (s : State) (a : Nat) : Byte := tget 0xFF s.flash.data a

/-- Bytes of the flash from an offset. -/
def flBytes (s : State) (a n : Nat) : List Byte := getBytes 0xFF s.flash.data a n

/-- The word at a flash offset. -/
def flWord (s : State) (a : Nat) : Word := BitVec.ofNat 16 (leVal (flBytes s a 2))

/-- The status word of a sector (R414). -/
def sectorStatus (s : State) (sec : Nat) : Word := tget 0xFFFF s.flash.status sec

/-- Bits of a status word programmed to 0. -/
def programmedBits (w : Word) : Nat := 16 - popCount 16 w.toNat

/-- A sector between its begun and its done mark (R414). -/
def halfErased (s : State) (sec : Nat) : Bool := programmedBits (sectorStatus s sec) % 2 == 1

/-- A word with its lowest 1 bit programmed to 0. -/
def clearLowest (w : Nat) : Nat := w - (w - Nat.land w (w - 1))

/-- A status word with its next mark; a full word gives way to a fresh one of the same parity first (R414). -/
def nextMark (w : Word) : Word :=
  if w = 0 then 0xFFFE else BitVec.ofNat 16 (clearLowest w.toNat)

/-- s with a mark added to a sector's status. -/
def markSector (s : State) (sec : Nat) : State :=
  { s with flash := { s.flash with status := tmod 0xFFFF s.flash.status sec nextMark } }

/-- A word that reads as uncorrectable: an ECC failure, or a half-erased sector (R410, R416). -/
def flBad (s : State) (a : Nat) : Bool := s.flash.badWords.contains (a / 2) || halfErased s (a / 4096)

/-- A bad block: marked at the factory or in service (R417). -/
def badBlock (s : State) (b : Nat) : Bool := s.flash.factoryBad.contains b || s.flash.runtimeBad.contains b

/-- Flash offset of an image slot: 1 primary, 2 fallback (Table 20-1). -/
def slotBase (n : Nat) : Nat := if n = 1 then 0 else 0x05800000

/-- A slot is empty when its MAGIC reads erased (R16). A MAGIC that cannot be read is not erased. -/
def slotEmpty (s : State) (n : Nat) : Bool :=
  !flBad s (slotBase n) && !flBad s (slotBase n + 2) && flWord s (slotBase n) == 0xFFFF
    && flWord s (slotBase n + 2) == 0xFFFF

/-- A flash erase or program runs on the program path (R322). -/
def flashRuns (s : State) : Bool := s.flash.op.isSome && !s.flash.suspended

/-- An activity waits for its resource, in arrival order (R322). -/
def deferTask (s : State) (a : Activity) : State :=
  if s.dram.deferred.contains a then s else { s with dram := { s.dram with deferred := s.dram.deferred ++ [a] } }

end Sys2Proof.Machine
end

