-- ==== Sys2Proof/Machine/Loader.lean ====
section
/-! DEFINITION. The loader: images, packets, checks, activation and failure (R140 to R167, R33, R60). -/

namespace Sys2Proof.Machine

/-- Load failure causes (Table 7-6). -/
abbrev lcNone : Nat := 0
abbrev lcFormat : Nat := 1
abbrev lcTarget : Nat := 2
abbrev lcKey : Nat := 3
abbrev lcAuth : Nat := 4
abbrev lcCrc : Nat := 5
abbrev lcFrame : Nat := 6
abbrev lcPartition : Nat := 7
abbrev lcBridge : Nat := 8
abbrev lcAbort : Nat := 9
abbrev lcMedia : Nat := 10

/-- A mode change with its MODE record (Table 19-3). -/
def enterMode (s : State) (m : Mode) : State :=
  setMode (journal s (engRec 5 0 0 0x10 stOk 0 s.mode.code m.code) false 1 .done) m

/-- Loader registers of a view. -/
def loadStat (s : State) (v : Nat) : LoadStat := tget {} s.ldr.stat v

/-- s with the loader registers of a view changed. -/
def setLoadStat (s : State) (v : Nat) (f : LoadStat → LoadStat) : State :=
  { s with ldr := { s.ldr with stat := tmod {} s.ldr.stat v f } }

/-- s with another running load. -/
def setRunning (s : State) (l : Option Load) : State := { s with ldr := { s.ldr with running := l } }

/-- A load that waits, or one that runs in M5 and has not reached its REGMASK packet, names a region (R164). -/
def claimed (s : State) (r : Nat) : Bool :=
  s.ldr.waiting.any (·.claim.contains r) || (match s.ldr.running with
    | some l => !l.device && l.claim.contains r
    | none => false)

/-- Shadow state of a region (Table 8-1). -/
def shadowOf (s : State) (r : Nat) : Shadow :=
  if claimed s r then .loading else tget .idle s.fab.shadowState r

/-- s with the shadow state of regions replaced. -/
def setShadow (s : State) (x : Shadow) (rs : List Nat) : State :=
  { s with fab := { s.fab with shadowState := tfill .idle x s.fab.shadowState rs } }

/-- A group of a partition. -/
def groupOf (s : State) (p cg : Nat) : Group := tget {} s.swp.groups (4 * p + cg)

/-- s with a group changed. -/
def setGroup (s : State) (p cg : Nat) (f : Group → Group) : State :=
  { s with swp := { s.swp with groups := tmod {} s.swp.groups (4 * p + cg) f } }

/-- The PATH field and the ORIGIN index of a load. -/
def pathCode : LoadPath → Nat
  | .slot _ => 0
  | .host _ _ _ _ => 1
  | .side => 2

/-- The power-up load runs (R158). -/
def powerUp (s : State) : Bool :=
  s.ldr.fallbackDue || (match s.ldr.running with
    | some l => pathCode l.path == 0
    | none => false)

/-- What reading one image word answers. -/
inductive ImgRead where
  | word (w : Word)
  | wait
  | media
  deriving DecidableEq, Repr

/-- A stored word of a load's image. -/
def imgRead (s : State) (l : Load) (i : Nat) : ImgRead :=
  match l.path with
  | .slot n => if flBad s (slotBase n + 2 * i) then .media else .word (flWord s (slotBase n + 2 * i))
  | _ => if i < l.buf.length then .word (nthD 0 l.buf i) else .wait

/-- `n` stored words of an image: they wait for the latest, and fail at the first bad one. -/
def imgReads (s : State) (l : Load) (i : Nat) : Nat → Option (Option (List Word))
  | 0 => some (some [])
  | n + 1 =>
    match imgRead s l i with
    | .media => some none
    | .wait => none
    | .word w =>
      match imgReads s l (i + 1) n with
      | some (some ws) => some (some (w :: ws))
      | r => r

/-- The key of a slot; an empty slot holds no bytes, and in RETURNED every slot reads as empty (R382, R384). -/
def keySlot (s : State) (k : Nat) : List Byte := if s.lc.state = .returned then [] else tget [] s.lc.keys k

/-- The key of a slot as a load may use it: none in M10, SCRAP and LOST (Table 18-1, R389). -/
def usableKey (s : State) (k : Nat) : List Byte :=
  if s.mode = .m10 ∨ s.lc.state = .scrap ∨ s.lc.state = .lost then [] else keySlot s k

/-- The key an image is decrypted and authenticated under (R149, R150). -/
def imageKey (s : State) (ksel : Nat) : List Byte := if ksel = 7 then List.replicate 32 0 else usableKey s ksel

/-- A stream word in clear: payload index counted from the first word of the stream. -/
def clearWord (s : State) (l : Load) (i : Nat) (w : Word) : Word :=
  if l.ksel = 7 then w else w ^^^ gcmStream (imageKey s l.ksel) l.nonce (i - 32)

/-- Clear stream words from a place. -/
def clearWords (s : State) (l : Load) (i : Nat) (ws : List Word) : List Word :=
  (ws.zip (upto i ws.length)).map fun e => clearWord s l e.2 e.1

/-! ### Submitting a load (R156 to R158, R376) -/

/-- A load waits or runs for a view. -/
def viewLoads (s : State) (v : Nat) : Bool :=
  s.ldr.waiting.any (·.view == v) || (match s.ldr.running with
    | some l => l.view == v
    | none => false)

/-- A load request in M5 names a scheduled group or a region that is LOADING or STAGED (R165). -/
def loadBusy (s : State) (p cg : Nat) (claim : List Nat) : Bool :=
  (s.mode == .m5 || s.mode == .m6 || s.mode == .m7)
    && ((groupOf s p cg).sched.isSome || claim.any fun r => shadowOf s r != .idle)

/-- Why a load request is refused: status and cause (R156, R158, R165, R376). `claim` holds the regions of its
partition that the image's REGMASK names, as far as the loader has read ahead (DESIGN CHOICE, log 117). -/
def loadRefusal (s : State) (v p cg : Nat) (claim : List Nat) : Option (Nat × Nat) :=
  if s.lc.state = .scrap then some (stRefused, lcKey)
  else if powerUp s then some (stBusy, lcNone)
  else if (s.mode = .m2 ∨ s.mode = .m4) ∧ 1 ≤ v ∧ v ≤ 15 then some (stDenied, lcNone)
  else if viewLoads s v || loadBusy s p cg claim then some (stBusy, lcNone)
  else none

/-- A load that waits, nothing read but the regions that it names. -/
def newLoad (v part cg : Nat) (path : LoadPath) (claim : List Nat) (now : Nat) : Load :=
  { view := v, part := part, cg := cg, path := path, device := false, phase := .header, buf := [], pos := 0
    imgId := 0, pers := 0, ksel := 0, sig := false, len := 0, nonce := 0, fadr := none, regmask := none
    claim := claim, written := [], banks := [], lastData := now }

/-- s with a load waiting (R158). -/
def addLoad (s : State) (l : Load) : State :=
  setLoadStat { s with ldr := { s.ldr with waiting := s.ldr.waiting ++ [l] } } l.view
    fun x => { x with state := 1, path := pathCode l.path, cause := 0, status := 0 }

/-- Every region cleared, and every bank filled with poison (R117, R141, R155). -/
def clearDevice (s : State) : State :=
  poisonAll { s with fab := { pers := s.fab.pers, probe := s.fab.probe } }

/-- A DMA read of host memory begins (R255). -/
def hostRead (s : State) (what : ReadFor) (addr len : Nat) : State :=
  { s with host := { s.host with
      reads := s.host.reads ++ [⟨s.host.nextRead, what, addr, len, []⟩], nextRead := s.host.nextRead + 1 } }

/-- The oldest waiting load starts, in a mode that allows one; as a device load, one of PF0 or the side port (R155 to
R158, R163, Table 1-4). -/
def loadStartNow (s : State) : State :=
  let inRun := s.mode == .m5 || s.mode == .m6 || s.mode == .m7
  let device := s.mode == .m2 || s.mode == .m4
  match s.ldr.running, pick (fun l => inRun || (device && !(decide (1 ≤ l.view) && decide (l.view ≤ 15)))) s.ldr.waiting with
  | none, some (l, rest) =>
    if s.ldr.fallbackDue then s
    else
      let l := { l with device := device, lastData := s.clk.f1 }
      let s := { s with ldr := { s.ldr with running := some l, waiting := rest } }
      let s := setLoadStat s l.view fun x => { x with state := 2 }
      let s := if device then clearDevice (enterMode s .m3) else s
      match l.path with
      | .host _ _ a n => hostRead s (.image l.view) a n
      | _ => s
  | _, _ => s

/-! ### How a load ends (R153, R156, Table 1-4) -/

/-- A load's completion toward the host (R156, Table 11-6). -/
def loadDone (s : State) (path : LoadPath) (status cause : Nat) : State :=
  match path with
  | .host g tag _ _ => queueCpl s ⟨g, kDone, status, cause, tag, 0, 0, 1, [], [], none⟩
  | _ => s

/-- The load's LOAD_START record has been committed, so that a LOAD_END record follows (R396). -/
def loadRecorded (l : Load) : Bool := l.phase == .stream || l.phase == .checks

/-- Regions that a load wrote a frame to. -/
def regionsWritten (l : Load) : List Nat := l.written.foldl (fun rs k => sins (fkRegion k) rs) []

/-- The running load ends: registers, LOAD_END record, completion. -/
def loadEnd (s : State) (l : Load) (status cause : Nat) : State :=
  let s := setLoadStat (setRunning s none) l.view fun x => { x with state := 3, cause := cause, status := status }
  let s := { s with host := { s.host with reads := s.host.reads.filter fun r => r.what != .image l.view } }
  let s := if loadRecorded l then
      journal s (engRec 1 l.part (pathCode l.path) 0x05 status l.imgId 0 cause) false 1 .done
    else s
  loadDone s l.path status cause

/-- s with banks no longer held by type-1 frames (R166). -/
def untype (s : State) (bs : List Nat) : State :=
  { s with bank := { s.bank with typed := tfill 64 64 s.bank.typed bs } }

/-- CFG_ERR_N asserts, and M4 begins (R161). -/
def enterFault (s : State) : State :=
  let s := enterMode s .m4
  poisonAll { s with pwr := { s.pwr with cfgErr := true } }

/-- A failed load (R153): nothing of it stays, the shadow of the regions it wrote going back to the active contents
(Table 8-1), and a device load takes the mode path of Table 1-4. -/
def loadFail (s : State) (l : Load) (status cause : Nat) : State :=
  let rs := regionsWritten l
  let s := { s with fab := { s.fab with shadow := rs.foldl (fun d r => copyRegion s.fab.active d r) s.fab.shadow } }
  let s := if l.device then s else setShadow s .idle (l.regmask.getD [])
  let s := untype (l.banks.foldl poisonBank s) l.banks
  let s := loadEnd s l status cause
  match l.path with
  | .slot 1 => { s with ldr := { s.ldr with boot := { s.ldr.boot with pcause := cause }, fallbackDue := true } }
  | .slot _ => enterFault { s with ldr := { s.ldr with boot := { s.ldr.boot with fcause := cause } } }
  | _ => if l.device then enterMode (clearDevice s) .m2 else s

/-- A failure at a frame address: CFG_FAILADR takes it. -/
def loadFailAt (s : State) (l : Load) (cause addr : Nat) : State :=
  loadFail (setLoadStat s l.view fun x => { x with failAdr := BitVec.ofNat 32 addr }) l stRefused cause

/-- A view's load ends early: running, or still waiting (R159, R260). -/
def endViewLoad (s : State) (v status : Nat) : State :=
  match s.ldr.running with
  | some l => if l.view = v ∧ pathCode l.path ≠ 0 then loadFail s l status lcAbort else waiting s
  | none => waiting s
where
  waiting (s : State) : State :=
    match pick (·.view == v) s.ldr.waiting with
    | some (l, rest) =>
      let s := setLoadStat { s with ldr := { s.ldr with waiting := rest } } v
        fun x => { x with state := 3, cause := lcAbort, status := status }
      loadDone s l.path status lcAbort
    | none => s

/-! ### The header (R144, R145, R152) -/

/-- The personality that a PERS word names (Table 7-3). -/
def persOf (w : Nat) : Option Nat :=
  if w = 0x9C19 then some 0
  else if 0x7C02 ≤ w ∧ w ≤ 0x7C08 then some (w - 0x7C00) else none

/-- Words of a whole image (R145). -/
def imgWords (len : Nat) (sig : Bool) : Nat := 32 + len + 8 + (if sig then 48 else 0)

/-- Words of the image that its source can give at most: an image longer than the LENGTH of its descriptor fails with
FORMAT at the header, and words beyond the image are not read (DESIGN CHOICE, log 107). -/
def imgMax (l : Load) : Nat :=
  match l.path with
  | .host _ _ _ n => min (n / 2) 0x2C00000
  | _ => 0x2C00000

/-- The first failed header check (R152 step 1). -/
def headerFault (s : State) (l : Load) (h : List Word) : Option Nat :=
  let w := fun i => (nthD 0 h i).toNat
  let len := w 10 + 65536 * w 11
  let sealed := s.lc.state == .sealed
  let ksel := w 7 % 8
  if w 0 ≠ 0x0C19 ∨ w 1 ≠ 0x5E9A then some lcFormat
  else if w 4 ≠ 0x9C19 then some lcTarget
  else match persOf (w 5) with
  | none => some lcTarget
  | some n =>
    if !l.device && n != s.fab.pers then some lcTarget
    else if w 7 ≥ 8 then some lcFormat
    else if 4 ≤ ksel ∧ ksel ≤ 6 then some lcKey
    else if ksel = 7 ∧ sealed then some lcKey
    else if ksel < 4 ∧ usableKey s ksel = [] then some lcKey
    else if w 8 ≥ 2 ∨ w 9 ≠ 0 ∨ (upto 18 14).any (fun i => w i != 0) ∨ len < 27
        ∨ imgWords len (w 8 % 2 == 1) > imgMax l then some lcFormat
    else if w 6 ≥ 16 then some lcFormat
    else if w 6 ≠ l.part then some lcPartition
    else none

/-- The running load with its header's fields. -/
def withHeader (l : Load) (h : List Word) : Load :=
  let w := fun i => (nthD 0 h i).toNat
  { l with
    imgId := w 2 + 65536 * w 3
    pers := (persOf (w 5)).getD 0
    ksel := w 7 % 8
    sig := w 8 % 2 == 1
    len := w 10 + 65536 * w 11
    nonce := BitVec.ofNat 96 (wordsVal ((h.drop 12).take 6))
    pos := 32 }

/-- The header is read and checked, and the load's LOAD_START record is presented (R152, Table 19-3). -/
def loadHeader (s : State) (l : Load) : State :=
  match imgReads s l 0 32 with
  | none => s
  | some none => loadFail s l stRefused lcMedia
  | some (some h) =>
    let w := fun i => nthD (0 : Word) h i
    let s := setLoadStat s l.view fun x => { x with
      imgId := BitVec.ofNat 32 (wordsVal ((h.drop 2).take 2)), ksel := (w 7).toNat % 8, pers := w 5 }
    match headerFault s l h with
    | some c => loadFail s (withHeader l h) stRefused c
    | none =>
      let l := { withHeader l h with phase := .journal }
      let cg := if l.device then 0 else l.cg
      journal (setRunning s (some l))
        (engRec 1 l.part (pathCode l.path) 0x04 stOk l.imgId (w 5).toNat (l.part + 16 * cg)) true 2 .loadStart

/-! ### Packets (R146, R147) -/

/-- The packets of Table 7-4. -/
inductive Packet where
  | nop | fadr | regmask | frame | endPkt
  deriving DecidableEq, Repr

/-- Kind and length in words of a packet by its header word; `none` for an invalid header (R146). -/
def packetOf (h : Nat) : Option (Packet × Nat) :=
  if h = 0x0000 then some (.nop, 1)
  else if h = 0x1101 then some (.fadr, 3)
  else if h = 0x1217 then some (.regmask, 25)
  else if h = 0x1000 then some (.endPkt, 2)
  else if h = 0x3000 then some (.frame, 258)
  else none

/-- The fields of a frame address make it invalid as it arrives (R143). -/
def addressFault (a : Nat) : Bool :=
  let t := fld a 30 28
  let col := fld a 11 8
  let f := fld a 6 0
  !bit a 31 || decide (t > 4) || fld a 27 25 != 0 || fld a 15 12 != 0 || bit a 7 || decide (fld a 24 16 ≥ 384)
    || (t == 0 && decide (f > 11)) || (t == 1 && (decide (col < 12) || decide (f > 63))) || (t == 2 && f != 0)

/-- The bank of a type-1 frame (R112). -/
def frameBank (k : Nat) : Nat := 4 * fkRegion k + (fkCol k - 12)

/-- The regions named by REGMASK words (Table 7-5). -/
def maskRegions (ws : List Word) : List Nat :=
  (List.range 384).filter fun r => (nthD 0 ws (r / 16)).getLsbD (r % 16)

/-- The REGMASK packet (R147, R162, R165, Table 7-6). -/
def takeRegmask (s : State) (l : Load) (ws : List Word) : State :=
  let rs := maskRegions ws
  if l.regmask.isSome then loadFail s l stRefused lcFormat
  else
    let l := { l with claim := [] }
    let s := setRunning { s with ldr := { s.ldr with regmask := tset [] s.ldr.regmask l.view rs } } (some l)
    if rs.any fun r => regionPart s r != l.part then
      loadFailAt s l lcPartition (l.fadr.getD 0)
    else if !l.device && ((groupOf s l.part l.cg).sched.isSome || rs.any fun r => shadowOf s r != .idle) then
      loadFail s l stBusy lcNone
    else
      let s := if l.device then s else setShadow s .loading rs
      setRunning s (some { l with regmask := some rs, pos := l.pos + 25 })

/-- The contents of a frame that has just entered the shadow plane are valid (R75, R132, R133). -/
def contentsValid (s : State) (l : Load) (k : Nat) : Bool :=
  let r := fkRegion k
  let c := fkCol k
  match fkType k with
  | 0 => type0Valid s.fab.shadow r c (fkFrame k) (l.written.contains (fkey 0 r c 10)) (l.written.contains (fkey 0 r c 11))
  | 2 => type2Valid s.fab.shadow r c
  | _ => true

/-- A type-1 frame may enter its bank while the fabric runs (R166). -/
def bankTakesFrame (s : State) (k : Nat) : Bool :=
  bankMaster s (frameBank k) == 0 && !siteEn s.fab.active (fkRegion k) (fkCol k)

/-- A frame that passed its checks is stored: types 0 to 4 in the shadow plane, type 1 in its bank (R132, R140, R166,
R319); the loader keeps the CRC of every one of them (R148). -/
def storeFrame (s : State) (l : Load) (k : Nat) (ws : List Word) (crc : Word) : State :=
  if fkType k = 1 then
    let b := frameBank k
    let typed := if l.device then s.bank.typed else tset 64 s.bank.typed b (4 * l.part + l.cg)
    let s := { s with
      bank := { s.bank with typed := typed }
      fab := { s.fab with shadow := { s.fab.shadow with crcs := tset 0 s.fab.shadow.crcs k crc } } }
    if bankRetired s b then s else putBytes b s (512 * fkFrame k) (bytesOf ws)
  else if badAddress k then s
  else
    { s with fab := { s.fab with shadow := { frames := tset [] s.fab.shadow.frames k ws
                                             crcs := tset 0 s.fab.shadow.crcs k crc } } }

/-- A write of a load into the shadow of a region that it has not yet written starts from a clear shadow. -/
def freshRegion (s : State) (l : Load) (k : Nat) : State :=
  if l.written.any (inRegion (fkRegion k)) then s
  else { s with fab := { s.fab with shadow := clearRegion s.fab.shadow (fkRegion k) } }

/-- A frame address after the increment of FADR_LO.FRAME (R147). -/
def nextAddress (a : Nat) : Nat := setFld a 6 0 (fld a 6 0 + 1)

/-- The FRAME packet (R143, R147, R148): address, CRC, contents, in that order. -/
def takeFrame (s : State) (l : Load) (ws : List Word) (crc : Word) : State :=
  let a := l.fadr.getD 0
  let k := a % 0x80000000
  match l.regmask with
  | none => loadFail s l stRefused lcFormat
  | some rs =>
    if addressFault a || l.written.contains k || !rs.contains (fkRegion k)
        || (l.pers != 0 && decide (fkRegion k ≥ 48 * l.pers)) then loadFailAt s l lcFrame a
    else if crc16 (bytesOf ws) ≠ crc then
      let wrote := fkType k == 1 && (l.device || bankTakesFrame s k)
      loadFailAt s { l with written := sins k l.written
                            banks := if wrote then sins (frameBank k) l.banks else l.banks } lcCrc a
    else if fkType k = 1 ∧ !l.device ∧ !bankTakesFrame s k then loadFailAt s l lcFrame a
    else if fkType k = 1 ∧ bankBusy s (frameBank k) then s
    else
      let s := freshRegion s l k
      let banks := if fkType k = 1 then sins (frameBank k) l.banks else l.banks
      let l := { l with written := sins k l.written, banks := banks }
      let s := storeFrame s l k ws crc
      if !contentsValid s l k then loadFailAt s l lcFrame a
      else
        let a' := nextAddress a
        let s := setLoadStat s l.view fun x => { x with fadr := BitVec.ofNat 32 a', fcrc := crc }
        setRunning s (some { l with fadr := some a', pos := l.pos + 258 })

/-- The next packet of the running load, when it is of a kind or invalid (R146). -/
def nextPacket (s : State) (kind : Packet) : State :=
  match s.ldr.running with
  | none => s
  | some l =>
    if l.phase ≠ .stream then s
    else if l.pos ≥ 32 + l.len then loadFail s l stRefused lcFormat
    else match imgReads s l l.pos 1 with
    | none => s
    | some none => loadFail s l stRefused lcMedia
    | some (some hs) =>
      let h := (nthD 0 (clearWords s l l.pos hs) 0).toNat
      match packetOf h with
      | none => loadFail s l stRefused lcFormat
      | some (k, n) =>
        if k ≠ kind then s
        else if l.pos + n > 32 + l.len then loadFail s l stRefused lcFormat
        else match imgReads s l (l.pos + 1) (n - 1) with
        | none => s
        | some none => loadFail s l stRefused lcMedia
        | some (some ws) =>
          let ws := clearWords s l (l.pos + 1) ws
          match kind with
          | .nop => setRunning s (some { l with pos := l.pos + 1 })
          | .fadr =>
            let a := (nthD 0 ws 0).toNat * 65536 + (nthD 0 ws 1).toNat
            let s := setLoadStat s l.view fun x => { x with fadr := BitVec.ofNat 32 a }
            setRunning s (some { l with fadr := some a, pos := l.pos + 3 })
          | .regmask => takeRegmask s l ws
          | .frame => takeFrame s l (ws.take 256) (nthD 0 ws 256)
          | .endPkt =>
            if nthD 0 ws 0 ≠ 3 ∨ l.regmask.isNone ∨ l.pos + 2 ≠ 32 + l.len then loadFail s l stRefused lcFormat
            else setRunning s (some { l with phase := .checks, pos := l.pos + 2 })

/-! ### The final checks and what follows them (R149 to R152, R140, R163) -/

/-- The tag and the signature of the whole image (R149 to R151): the header is the additional data and the stream as
stored the ciphertext, an open image's too (R150). -/
def imageAuthentic (s : State) (l : Load) (ws : List Word) : Bool :=
  let covered := bytesOf (ws.take (32 + l.len))
  let tag := bytesOf ((ws.drop (32 + l.len)).take 8)
  gcmTag (imageKey s l.ksel) l.nonce (covered.take 64) (covered.drop 64) == tag
    && (if l.sig then
          usableKey s 4 != [] && signatureGood (usableKey s 4) (covered ++ tag) (bytesOf ((ws.drop (40 + l.len)).take 48))
        else s.lc.state != .sealed)

/-- The frame keys that a region with any frame must have received (R147). -/
def wholeRegion (r : Nat) : List Nat :=
  (List.range 16).flatMap (fun c => (List.range 12).map fun f => fkey 0 r c f)
    ++ (List.range 16).map (fun c => fkey 2 r c 0) ++ (List.range 5).map (fun f => fkey 3 r 0 f)
    ++ (if edgeRegion r then [fkey 4 r 0 0] else [])

/-- The first missing frame of a load, in region and address order (R147). -/
def firstMissing (l : Load) : Option Nat :=
  firstSome (fun r => (wholeRegion r).find? fun k => !l.written.contains k) (regionsWritten l)

/-- The configuration as it would stand after a load: the shadow of its regions over the active plane (R93). Regions
that earlier loads staged stand with their active contents, as in the checks of a swap (DESIGN CHOICE, log 101). -/
def planeAfter (s : State) (rs : List Nat) : Plane := rs.foldl (fun p r => copyRegion s.fab.shadow p r) s.fab.active

/-- BRG_REJ of a view (R93). -/
def brgRej (s : State) (v : Nat) (w : Reject) : State :=
  { s with vregs := tset 0 s.vregs (viewKey v 0x21100) (BitVec.ofNat 16 (0x8000 + w.1 % 8 * 0x1000 + w.2 % 0x1000)) }

/-- The flip-flops of a region that hold 1 by VALn of its configuration (R60). -/
def valOnes (p : Plane) (r : Nat) : List Nat :=
  (List.range 16).flatMap fun t => (List.range 16).flatMap fun c => (List.range 16).flatMap fun e =>
    (List.range 2).filterMap fun i => if bit (ctrlOf p r t c e) (1 - i) then some (ffKey r t c e i) else none

/-- A MAC site as its configuration initialises it (R134). -/
def macInit (p : Plane) (r t : Nat) : Mac :=
  { k0 := BitVec.ofNat 16 (siteWord p r t 2), k1 := BitVec.ofNat 16 (siteWord p r t 3) }

/-- A region's flip-flops and hard sites as the active configuration initialises them, and its X3 outputs and Bridge
stages at 0, its edge-out bits kept or not (R60, Table 8-4). -/
def initRegion (s : State) (r : Nat) (keepEdge : Bool) : State :=
  let f := s.fab
  let p := f.active
  let outFF := fun k => k / 8192 != r
  let outX3 := fun k => k / 1216 != r || (keepEdge && decide (k % 1216 ≥ 1152))
  let outSrc := fun k => k % 3072 / 8 != r
  let macs := (List.range 12).foldl (fun t i => tset {} t (siteKey r i) (macInit p r i)) f.mac
  { s with fab := { f with
      ff := tfill false true (tkeep outFF f.ff) (valOnes p r)
      x3 := tkeep outX3 f.x3
      bridge := tkeep outSrc f.bridge
      mac := macs
      site := tfill {} {} f.site (upto (4 * r) 4)
      x5in := tkeep (fun k => keepEdge || k / 64 != r) f.x5in
      x5out := tkeep (fun k => keepEdge || k / 64 != r) f.x5out } }

/-- A passing device load is activated: shadow to active for its regions, initial values, personality, M5, CFG_ERR_N
released (R33, R60, R140, R161). -/
def activate (s : State) (l : Load) (rs : List Nat) : State :=
  let s := { s with fab := { s.fab with
    active := rs.foldl (fun p r => copyRegion s.fab.shadow p r) s.fab.active
    pers := l.pers
    fromSlot := match l.path with
      | .slot n => tfill 0 n s.fab.fromSlot rs
      | _ => s.fab.fromSlot } }
  let s := (regionsWritten l).foldl (fun s r => initRegion s r false) s
  let s := enterMode s .m5
  { s with pwr := { s.pwr with cfgErr := false } }

/-- A load that passed in M5: its regions are staged in its group, those without frames blank (R141, R163, R168). -/
def stage (s : State) (l : Load) (rs : List Nat) : State :=
  let none_ := rs.filter fun r => !(regionsWritten l).contains r
  let s := { s with fab := { s.fab with shadow := none_.foldl clearRegion s.fab.shadow } }
  setShadow s (.staged l.cg) rs

/-- The final checks end (R152 step 3). -/
def loadChecks (s : State) (l : Load) : State :=
  match imgReads s l 0 (imgWords l.len l.sig) with
  | none => s
  | some none => loadFail s l stRefused lcMedia
  | some (some ws) =>
    let rs := l.regmask.getD []
    if !imageAuthentic s l ws then loadFail s l stRefused lcAuth
    else match firstMissing l with
    | some k => loadFailAt s l lcFrame (0x80000000 + k)
    | none =>
      let after := (rs.filter fun r => !(regionsWritten l).contains r).foldl clearRegion (planeAfter s rs)
      match checkPlane s after rs (configured after) l.written l.pers with
      | some x => loadFail (brgRej s l.view x) l stRefused lcBridge
      | none =>
        let slot := match l.path with | .slot n => n | _ => 0
        if l.device then
          let s := { s with ldr := { s.ldr with boot := { s.ldr.boot with slot := slot } } }
          loadEnd (activate s l rs) l stOk lcNone
        else loadEnd (stage s l rs) l stOk lcNone

/-! ### The power-up load (R155) -/

/-- The load of an image slot starts (R155). -/
def slotLoad (s : State) (n : Nat) : State :=
  let l := { newLoad 0 0 0 (.slot n) [] s.clk.f1 with device := true }
  setLoadStat (setRunning s (some l)) 0 fun x => { x with state := 2, path := 0, cause := 0, status := 0 }

/-- The power-up load path of reset release: M2 when both slots are empty, else M3 and the primary slot, or the
fallback slot when the primary is empty (R16, R155, Table 1-4). -/
def powerUpLoad (s : State) : State :=
  let s := clearDevice s
  let pe := slotEmpty s 1
  let fe := slotEmpty s 2
  if pe && fe then
    enterMode { s with ldr := { s.ldr with boot := { s.ldr.boot with pempty := true, fempty := true } } } .m2
  else if pe then
    let s := { s with ldr := { s.ldr with boot := { s.ldr.boot with pempty := true }, fallbackDue := true } }
    setLoadStat (enterMode s .m3) 0 fun x => { x with state := 2, path := 0 }
  else slotLoad (enterMode s .m3) 1

/-- The fallback begins: a second clear and fill, then the fallback slot, or M4 when it is empty (R155). -/
def fallback (s : State) : State :=
  let s := clearDevice { s with ldr := { s.ldr with fallbackDue := false } }
  if slotEmpty s 2 then
    enterFault { s with ldr := { s.ldr with boot := { s.ldr.boot with fempty := true } } }
  else slotLoad s 2

/-! ### The commands -/

/-- FALLBACK_LOAD. -/
def execFallbackLoad (s : State) : Result := .next (if s.ldr.fallbackDue then fallback s else s)

/-- LOAD_START. -/
def execLoadStart (s : State) : Result := .next (loadStartNow s)

/-- LOAD_HEADER. -/
def execLoadHeader (s : State) : Result :=
  .next (match s.ldr.running with
    | some l => if l.phase = .header then loadHeader s l else s
    | none => s)

/-- NOP packet. -/
def execNop (s : State) : Result := .next (nextPacket s .nop)

/-- WRITE of FADR. -/
def execFadr (s : State) : Result := .next (nextPacket s .fadr)

/-- WRITE of REGMASK. -/
def execRegmask (s : State) : Result := .next (nextPacket s .regmask)

/-- FRAME packet. -/
def execFrame (s : State) : Result := .next (nextPacket s .frame)

/-- WRITE of END. -/
def execEndPkt (s : State) : Result := .next (nextPacket s .endPkt)

/-- LOAD_CHECKS_DONE. -/
def execLoadChecksDone (s : State) : Result :=
  .next (match s.ldr.running with
    | some l => if l.phase = .checks then loadChecks s l else s
    | none => s)

/-- LOAD_TIMEOUT: 100 ms without data end a side-port or host load (R157). -/
def execLoadTimeout (s : State) : Result :=
  .next (match s.ldr.running with
    | some l =>
      if pathCode l.path ≠ 0 ∧ passed s l.lastData 60000000 then loadFail s l stTimeout lcAbort else s
    | none => s)

end Sys2Proof.Machine
end

