-- ==== Sys2Proof/Machine/Almanac.lean ====
section
/-! DEFINITION. The Almanac: entries, ranges, shares, edits, the flip check, flips, copies and bulk loads (R194, R195,
R199 to R211). -/

namespace Sys2Proof.Machine

/-! ### Entries (Tables 9-2 and 9-3) -/

/-- Entries of one page of the whole Almanac. -/
abbrev pageSize : Nat := 262144

/-- The fields of an entry. -/
def aKind (e : Nat) : Nat := fld e 127 124
def aOffset (e : Nat) : Nat := fld e 111 96
def aLength (e : Nat) : Nat := fld e 95 80
def aEgress (e : Nat) : Nat := fld e 76 64
def aRep (e : Nat) : Nat := fld e 63 60
def aPhase (e : Nat) : Nat := fld e 59 48
def aCap (e : Nat) : Nat := fld e 47 40
def aClass (e : Nat) : Nat := fld e 36 36
def aQid (e : Nat) : Nat := fld e 19 0

/-- The kinds of egress of Table 9-3. -/
inductive Egress where
  | seg (k : Nat)
  | link (k : Nat)
  | fsp (k : Nat)
  | host (g : Nat)
  | mc (c : Nat)
  deriving DecidableEq, Repr

/-- The egress that a number names (Table 9-3). -/
def egressOf (n : Nat) : Option Egress :=
  if n < 192 then some (.seg n)
  else if n < 200 then some (.link (n - 192))
  else if n < 456 then some (.fsp (n - 200))
  else if n < 4552 then some (.host (n - 456))
  else if n < 4554 then some (.mc (n - 4552))
  else none

/-- TIM_SHARE of a link (0 to 7) or the host (8) for a partition. -/
def timShare (s : State) (k p : Nat) : Nat :=
  (dev s (0x50200 + 4 * (16 * k + p)) (if p = 0 then (if k < 8 then 44 else 96) else 0)).toNat

/-- First entry and number of entries of a partition's range (R199). -/
def arange (s : State) (p : Nat) : Nat × Nat :=
  let w := (dev s (0x50100 + 4 * p) (if p = 0 then 0x80 else 0)).toNat
  (fld w 14 8 * 2048, fld w 7 0 * 2048)

/-- First QID and one past the last of a partition's range; empty when BASE exceeds LAST (R214). -/
def qrange (s : State) (p : Nat) : Nat × Nat :=
  let w := (dev s (0x40100 + 4 * p) (if p = 0 then 0x00FF else 0xFF00)).toNat
  (w / 256 * 4096, (w % 256 + 1) * 4096)

/-- A QID lies in a partition's range (R214). -/
def ownsQid (s : State) (p q : Nat) : Bool :=
  let r := qrange s p
  decide (r.1 ≤ q) && decide (q < r.2)

/-- Almanac state of a partition. -/
def almOf (s : State) (p : Nat) : AlmPart := tget {} s.alm.parts p

/-- s with a partition's Almanac state changed. -/
def setAlm (s : State) (p : Nat) (f : AlmPart → AlmPart) : State :=
  { s with alm := { s.alm with parts := tmod {} s.alm.parts p f } }

/-- The entries other than UNUSED in a partition's range of a page, by relative index, ascending. -/
def pageEntries (s : State) (p page : Nat) : List (Nat × Nat) :=
  let (b, n) := arange s p
  let lo := page * pageSize + b
  (s.alm.entries.filter fun e => decide (lo ≤ e.1 ∧ e.1 < lo + n) && aKind e.2.toNat != 0).map
    fun e => (e.1 - lo, e.2.toNat)

/-- The entries of a partition's active page. -/
def activeEntries (s : State) (p : Nat) : List (Nat × Nat) := pageEntries s p (almOf s p).page

/-- The entries of a partition's inactive page. -/
def inactiveEntries (s : State) (p : Nat) : List (Nat × Nat) := pageEntries s p (1 - (almOf s p).page)

/-- A stored entry of a partition's page. -/
def rawEntry (s : State) (p page rel : Nat) : BitVec 128 :=
  tget 0 s.alm.entries (page * pageSize + (arange s p).1 + rel)

/-- s with the entries of a key range cleared to UNUSED. -/
def clearEntries (s : State) (lo n : Nat) : State :=
  { s with alm := { s.alm with entries := tkeep (fun k => !(decide (lo ≤ k) && decide (k < lo + n))) s.alm.entries } }

/-- An entry applies in the frame of a hyperframe index (Table 9-2). -/
def appliesIn (e h : Nat) : Bool := h % 2 ^ aRep e == aPhase e % 2 ^ aRep e

/-- An entry covers a slot offset (R201). -/
def coversSlot (e o : Nat) : Bool := decide (aOffset e ≤ o) && decide (o < aOffset e + aLength e)

/-! ### The flip check (R200 to R204, R209) -/

/-- FIELD: the entry alone (Table 9-2, Table 9-4). -/
def entryField (s : State) (e : Nat) : Bool :=
  let k := aKind e
  let cap := aCap e
  k ≤ 4 && fld e 123 112 == 0 && fld e 79 77 == 0 && fld e 39 37 == 0 && fld e 35 20 == 0
    && decide (aOffset e ≤ 65534) && decide (1 ≤ aLength e) && decide (aOffset e + aLength e ≤ flen s)
    && decide (aRep e ≤ 12) && hlen s % 2 ^ aRep e == 0
    && (k == 2 || aClass e == 0) && (k == 1 || aQid e == 0)
    && (match egressOf (aEgress e) with
      | none => false
      | some (.mc _) => (k == 3 || k == 4) && cap == 0
      | some (.seg _) => (k == 1 || k == 2) && cap == 0
      | some (.link _) => (k == 1 || k == 2) && decide (1 ≤ cap ∧ cap ≤ 44)
      | some (.fsp _) => (k == 1 || k == 2) && decide (1 ≤ cap ∧ cap ≤ 4)
      | some (.host _) => (k == 1 || k == 2) && decide (1 ≤ cap ∧ cap ≤ 96))

/-- ORDER: ascending EGRESS, and within one egress ascending OFFSET (R203). -/
def entryOrder (prev e : Nat) : Bool :=
  decide (aEgress prev < aEgress e) || (aEgress prev == aEgress e && decide (aOffset prev ≤ aOffset e))

/-- OWNER: the QID and the egress are the partition's; REFRESH and MAINT only in P0's range (R203). -/
def entryOwner (s : State) (p e : Nat) : Bool :=
  (aKind e != 1 || ownsQid s p (aQid e))
    && (match egressOf (aEgress e) with
      | some (.seg k) => segPart s k == p
      | some (.fsp k) => fspPart s k == p
      | some (.host g) => ringPart g == p
      | some (.link _) => true
      | some (.mc _) => p == 0
      | none => false)

/-- Two entries draw on one limit of Table 9-4: the same egress, or two host paths. -/
def sameLimit (a b : Nat) : Bool :=
  match egressOf a, egressOf b with
  | some (.host _), some (.host _) => true
  | _, _ => a == b

/-- The largest sum of CAP that entries reach in any slot of any frame. The sum changes at the offset of an entry, and
a set of entries that share a frame shares the frame its largest REP names. -/
def capPeak (es : List Nat) : Nat :=
  es.foldl (fun m a => es.foldl (fun m b =>
    max m (total ((es.filter fun e => coversSlot e (aOffset a) && appliesIn e (aPhase b % 2 ^ aRep b)).map aCap))) m) 0

/-- Two entries meet (R202). -/
def entriesMeet (a b : Nat) : Bool :=
  let r := min (aRep a) (aRep b)
  decide (aOffset a < aOffset b + aLength b) && decide (aOffset b < aOffset a + aLength a)
    && aPhase a % 2 ^ r == aPhase b % 2 ^ r

/-- OVERLAP: an entry against the earlier entries it meets (Table 9-4). -/
def entryOverlap (s : State) (p : Nat) (earlier : List Nat) (e : Nat) : Bool :=
  let met := earlier.filter fun a => sameLimit (aEgress a) (aEgress e) && entriesMeet a e
  match egressOf (aEgress e) with
  | some (.link k) => decide (capPeak (e :: met) ≤ timShare s k p)
  | some (.fsp _) => decide (capPeak (e :: met) ≤ 4)
  | some (.host _) => decide (capPeak (e :: met) ≤ timShare s 8 p)
  | _ => met.isEmpty

/-- The checks of the entries in ascending index: cause and failing entry (R209). -/
def checkEntries (s : State) (p : Nat) : List Nat → Option Nat → List (Nat × Nat) → Option (Nat × Nat)
  | _, _, [] => none
  | earlier, prev, (i, e) :: es =>
    if !entryField s e then some (2, i)
    else if (match prev with | some a => !entryOrder a e | none => false) then some (1, i)
    else if !entryOwner s p e then some (3, i)
    else if !entryOverlap s p earlier e then some (4, i)
    else checkEntries s p (e :: earlier) (some e) es

/-- The slots that REFRESH entries cover in a hyperframe, as intervals in ascending order of their starts. -/
def refreshCover (s : State) (es : List Nat) : List (Nat × Nat) :=
  (List.range (hlen s)).flatMap fun h =>
    (es.filter (appliesIn · h)).map fun e => (h * flen s + aOffset e, h * flen s + aOffset e + aLength e)

/-- The first gap of 3 or more slots among intervals, as the end of the covered slots before it. -/
def firstGap : Nat → List (Nat × Nat) → Option Nat
  | _, [] => none
  | stop, (a, b) :: r => if stop + 3 ≤ a then some stop else firstGap (max stop b) r

/-- The last covered slot before the first run of 3 uncovered slots (R204, R210). -/
def refreshGap (s : State) (es : List Nat) : Option Nat :=
  match refreshCover s es with
  | [] => none
  | (a0, b0) :: r =>
    let n := flen s * hlen s
    let last := r.foldl (fun m e => max m e.2) b0
    let gap := firstGap b0 r
    if 3 ≤ a0 then some (last - 1)
    else match gap with
    | some g => some (g - 1)
    | none => if 3 ≤ n - last + a0 then some (last - 1) else none

/-- The REFRESH rule of a channel: the entry named on failure. -/
def checkRefresh (s : State) (es : List (Nat × Nat)) (mc : Nat) : Option Nat :=
  let rs := es.filter fun e => aKind e.2 == 3 && aEgress e.2 == 4552 + mc
  if rs.isEmpty then none
  else (refreshGap s (rs.map (·.2))).map fun g =>
    ((rs.find? fun e => appliesIn e.2 (g / flen s) && coversSlot e.2 (g % flen s)).map (·.1)).getD 0

/-- The whole check of an inactive range: cause and entry (R209). -/
def checkPage (s : State) (p : Nat) : Option (Nat × Nat) :=
  let es := inactiveEntries s p
  match checkEntries s p [] none es with
  | some x => some x
  | none =>
    if p ≠ 0 then none
    else match checkRefresh s es 0 with
    | some i => some (5, i)
    | none => (checkRefresh s es 1).map fun i => (5, i)

/-! ### Edits, copies, bulk loads (R206 to R208) -/

/-- Edits are refused with BUSY (R206). -/
def almBusy (s : State) (p : Nat) : Bool := (almOf s p).flip.isSome || (almOf s p).busy.isSome

/-- Relative index of a TIM_AIDX commit. -/
def aidxOf (val : Nat) : Nat := val % 0x40000

/-- Why a TIM_AIDX commit is refused (R206). -/
def aidxCheck (s : State) (p val : Nat) : Option Nat :=
  if aidxOf val ≥ (arange s p).2 then some stInvalid
  else if almBusy s p then some stBusy
  else none

/-- A TIM_AIDX commit writes the view's TIM_AENT words into an inactive entry. -/
def aidxApply (s : State) (v : View) (val : Nat) : State :=
  let p := viewPart s v
  let ws := (List.range 8).map fun k => vw s v (0x50600 + 4 * k) 0
  let key := (1 - (almOf s p).page) * pageSize + (arange s p).1 + aidxOf val
  { s with alm := { s.alm with entries := tset 0 s.alm.entries key (BitVec.ofNat 128 (wordsVal ws)) } }

/-- A page's range replaced by a list of entries from its first. -/
def writeRange (s : State) (p page : Nat) (es : List (Nat × BitVec 128)) : State :=
  let (b, n) := arange s p
  let s := clearEntries s (page * pageSize + b) n
  { s with alm := { s.alm with
      entries := es.foldr (fun e t => tset 0 t (page * pageSize + b + e.1) e.2) s.alm.entries } }

/-- A DONE entry for a request that came by a descriptor. -/
def descDone (s : State) (r : Option (Nat × Word)) (status cause value : Nat) : State :=
  match r with
  | some (g, tag) => queueCpl s ⟨g, kDone, status, cause, tag, value, 0, 1, [], [], none⟩
  | none => s

/-- The page copy finishes (R208). -/
def copyDone (s : State) (p : Nat) (r : Option (Nat × Word)) : State :=
  let a := almOf s p
  let (b, n) := arange s p
  let lo := a.page * pageSize + b
  let es := (s.alm.entries.filter fun e => decide (lo ≤ e.1 ∧ e.1 < lo + n)).map fun e => (e.1 - lo, e.2)
  let s := writeRange s p (1 - a.page) es
  descDone (setAlm s p fun a => { a with busy := none }) r stOk 0 0

/-- The entries of a schedule file that passes its checks, with its CRC (R207). -/
def fileEntries (s : State) (p : Nat) (bs : List Byte) : Option (List (BitVec 128) × Nat) :=
  let n := fun a k => leVal ((bs.drop a).take k)
  let count := n 12 4
  let body := (bs.drop 32).take (16 * count)
  if bs.length ≥ 32 ∧ n 0 4 = 0x5E9AA1C0 ∧ n 4 2 = flen s ∧ n 6 2 = hlen s - 1 ∧ n 8 1 = p
      ∧ count ≤ (arange s p).2 ∧ body.length = 16 * count ∧ crc32 body = n 16 4 then
    some ((List.range count).map fun i => BitVec.ofNat 128 (leVal ((body.drop (16 * i)).take 16)), n 16 4)
  else none

/-- A bulk load ends: DONE with the file's CRC, and the range is free again. -/
def bulkEnd (s : State) (p : Nat) (status crc : Nat) : State :=
  match (almOf s p).busy with
  | some (.bulk g tag _ _ _ _ _) =>
    descDone (setAlm s p fun a => { a with busy := none }) (some (g, tag)) status 0 crc
  | _ => s

/-- The bytes of a schedule file have been read (R207 steps 1 and 2). -/
def bulkRead (s : State) (p : Nat) (bs : Option (List Byte)) : State :=
  match (almOf s p).busy with
  | some (.bulk g tag a n none _ _) =>
    match bs with
    | none => bulkEnd s p stUe 0
    | some file =>
    match fileEntries s p file with
    | none => bulkEnd s p stRefused (leVal ((file.drop 16).take 4))
    | some (es, crc) =>
      let s := setAlm s p fun x => { x with busy := some (.bulk g tag a n (some es) crc false) }
      journal s (engRec 2 p 0x11 0x09 stOk crc 0 es.length) true 1 (.afile p)
  | _ => s

/-- The AFILE record's fate (R207 step 2). -/
def bulkCommitted (s : State) (p : Nat) (ok : Bool) : State :=
  match (almOf s p).busy with
  | some (.bulk g tag a n (some es) crc false) =>
    if ok then setAlm s p fun x => { x with busy := some (.bulk g tag a n (some es) crc true) }
    else bulkEnd s p stJournalFull crc
  | _ => s

/-- The last entry of the range is written (R207 steps 3 and 4). -/
def bulkDone (s : State) (p : Nat) : State :=
  match (almOf s p).busy with
  | some (.bulk _ _ _ _ (some es) crc true) =>
    bulkEnd (writeRange s p (1 - (almOf s p).page) ((upto 0 es.length).zip es)) p stOk crc
  | _ => s

/-! ### Flips (R209, R210) -/

/-- Page-flip causes of Table 9-5. -/
abbrev pfBusy : Nat := 6
abbrev pfTooLate : Nat := 7
abbrev pfStopped : Nat := 8
abbrev pfCancelled : Nat := 9
abbrev pfJournal : Nat := 10

/-- The status that goes with a page-flip cause (Table 9-5). -/
def flipStatus (c : Nat) : Nat :=
  if c = 0 then stOk else if c = pfStopped ∨ c = pfCancelled then stAborted else stRefused

/-- A flip ends with a cause: TIM_PGSTAT, TIM_PGFAIL, event, DONE entry. -/
def flipEnd (s : State) (p cause fail : Nat) : State :=
  let r := ((almOf s p).flip.map (·.ring)).getD none
  let s := setAlm s p fun a => { a with flip := none, cause := cause, fail := if cause = 0 then a.fail else fail }
  descDone (raiseEv s (if cause = 0 then 1779 else 1780)) r (flipStatus cause) cause fail

/-- The pages of a partition change places. -/
def flipNow (s : State) (p : Nat) : State :=
  flipEnd (setAlm s p fun a => { a with page := 1 - a.page }) p 0 0

/-- A FLIP request: INVALID without RUN and NEXT, BUSY, or a check that starts (R209, R210). Its status if it is
refused. -/
def flipRefusal (s : State) (p : Nat) (next : Bool) : Option Nat :=
  if !next && !bit (timCtlNext s) 15 then some stInvalid
  else if almBusy s p then some stBusy
  else none

/-- A FLIP request runs (R209, R210, Table 9-5). -/
def flipRequest (s : State) (p : Nat) (next : Bool) (frame : Nat) (v : Option View) (r : Option (Nat × Word)) : State :=
  match flipRefusal s p next with
  | some st =>
    if st = stInvalid then descDone s r stInvalid 0 0
    else
      let s := raiseEv (setAlm s p fun a => { a with cause := pfBusy, fail := 0 }) 1780
      descDone s r stRefused pfBusy 0
  | none => setAlm s p fun a => { a with flip := some ⟨next, frame, none, false, v, r⟩ }

/-- The boundary that a request names, when it lies at least 1 µs away (R195, R171, R209). -/
def targetBoundary (s : State) (next : Bool) (frame : Nat) : Option Nat :=
  if next then some (boundaryFrom s (sysNow s + 1000))
  else if namesFuture s frame && decide (sysNow s + 1000 ≤ boundaryOf s frame) then some (boundaryOf s frame)
  else none

/-- The flip check ends (R209). -/
def flipChecked (s : State) (p : Nat) (f : Flip) : State :=
  match checkPage s p with
  | some (c, i) => flipEnd s p c i
  | none =>
    let pass := fun (b : Option Nat) =>
      journal (setAlm s p fun a => { a with flip := some { f with inJournal := true } })
        (engRec 2 p 0x10 0x08 stOk f.frame 0 f.next.toNat) true 1 (.flip p b)
    if runActive s then
      match targetBoundary s f.next f.frame with
      | none => flipEnd s p pfTooLate 0
      | some b => pass (some b)
    else if f.next then pass none
    else flipEnd s p pfStopped 0

/-- The FLIP record's fate: SCHEDULED, at once, or JOURNAL (R210). -/
def flipCommitted (s : State) (p : Nat) (b : Option Nat) (ok : Bool) : State :=
  match (almOf s p).flip with
  | none => s
  | some f =>
    if !ok then flipEnd s p pfJournal 0
    else match b with
    | none => flipNow s p
    | some b => setAlm s p fun a => { a with flip := some { f with boundary := some b, inJournal := false } }

/-- CANCEL is accepted: SCHEDULED, and the boundary more than 1 µs away (R210). -/
def flipCancellable (s : State) (p : Nat) : Bool :=
  match (almOf s p).flip with
  | some f =>
    match f.boundary with
    | some b => decide (sysNow s + 1000 < b)
    | none => false
  | none => false

/-- Step 3 of a frame boundary for page flips: those due take effect; RUN = 0 stops the rest (R196, R210). -/
def flipStep (s : State) : State :=
  (List.range 16).foldl (fun s p =>
    match (almOf s p).flip with
    | some f =>
      match f.boundary with
      | some b =>
        if !runActive s then flipEnd s p pfStopped 0
        else if b ≤ s.clk.systime then flipNow s p else s
      | none => s
    | none => s) s

/-! ### Ranges, shares, lengths (R194, R199) -/

/-- TIM_FLEN and TIM_HLEN writes are refused with BUSY (R194). -/
def lengthBusy (s : State) : Bool := runActive s || (List.range 16).any fun p => (almOf s p).flip.isSome

/-- Every partition's active page cleared to UNUSED (R194). -/
def clearActive (s : State) : State :=
  (List.range 16).foldl (fun s p =>
    let (b, n) := arange s p
    clearEntries s ((almOf s p).page * pageSize + b) n) s

/-- The partition that owns an Almanac entry. -/
def entryOwnerOf (s : State) (i : Nat) : Option Nat :=
  (List.range 16).find? fun p => let (b, n) := arange s p; decide (b ≤ i ∧ i < b + n)

/-- Why a TIM_ARANGE write is refused (R199). -/
def arangeCheck (s : State) (p val : Nat) : Option Nat :=
  let b := fld val 14 8 * 2048
  let n := fld val 7 0 * 2048
  if b + n > pageSize ∨ (n ≠ 0 ∧ (List.range 16).any (fun q => let (c, m) := arange s q
      q != p && m != 0 && decide (b < c + m) && decide (c < b + n))) then some stInvalid
  else if runActive s then some stBusy
  else none

/-- A TIM_ARANGE write takes effect: entries whose owner changes are cleared in both pages (R199). -/
def arangeApply (s : State) (p : Nat) (val : Word) : State :=
  let t := setDev s (0x50100 + 4 * p) (if p = 0 then 0x80 else 0) val
  { t with alm := { t.alm with
      entries := tkeep (fun k => entryOwnerOf s (k % pageSize) == entryOwnerOf t (k % pageSize)) t.alm.entries } }

/-- Why a TIM_SHARE write is refused (TIM_SHARE's field). -/
def shareCheck (s : State) (i val : Nat) : Option Nat :=
  let k := i / 16
  let p := i % 16
  let sum := total ((List.range 16).map fun q => if q = p then val % 128 else timShare s k q)
  let es := (activeEntries s p).filter fun e =>
    match egressOf (aEgress e.2) with
    | some (.link j) => j == k
    | some (.host _) => k == 8
    | _ => false
  if sum > (if k < 8 then 44 else 96) then some stInvalid
  else if val % 128 < capPeak (es.map (·.2)) then some stBusy
  else none

/-! ### The commands -/

/-- AFILE_DONE. -/
def execAfileDone (p : Nat) (s : State) : Result := .next (bulkDone s p)

/-- PAGE_COPY_DONE. -/
def execPageCopyDone (p : Nat) (s : State) : Result :=
  .next (match (almOf s p).busy with
    | some (.copy r) => copyDone s p r
    | _ => s)

/-- FLIP_CHECK_DONE. -/
def execFlipCheckDone (p : Nat) (s : State) : Result :=
  .next (match (almOf s p).flip with
    | some f => if f.boundary.isNone && !f.inJournal then flipChecked s p f else s
    | none => s)

end Sys2Proof.Machine
end

