-- ==== Sys2Proof/Machine/Operands.lean ====
section
/-! DEFINITION. The operand forms that several commands share: a register named by kind and index, a side-port header, a
hart's address. -/

namespace Sys2Proof.Machine

/-! ### Registers and headers -/

/-- The offset of register i of a kind, where it exists. -/
def regOffset (reg : Reg) (i : Nat) : Option Nat :=
  match regMap.find? (·.reg == reg) with
  | some r => if i < r.count then some (r.off i) else none
  | none => none

/-- A header whose offset bits [23:20] or [1:0] are not zero (R49). -/
def badHeader (off : Nat) : Bool := decide (off ≥ 0x100000) || off % 4 != 0

/-! ### Where an access goes (R333, R334, Table 15-3) -/

/-- Where the bytes of an access lie. -/
inductive Target where
  /-- the register view: offset of the doubleword, first byte in it -/
  | view (off lane : Nat)
  /-- a bank and the byte address in it -/
  | bank (b a : Nat)
  | misaligned
  | outside
  deriving DecidableEq, Repr

/-- The target of an access of n bytes. In the register view an access lies within one doubleword (R35). -/
def targetOf (addr n : Nat) : Target :=
  if 0x20000000 ≤ addr ∧ addr < 0x20100000 then
    if addr % 4 + n > 4 then .misaligned else .view (addr - 0x20000000 - addr % 4) (addr % 4)
  else match bankOf addr with
    | some (b, a) => if a + n ≤ bankSize then .bank b a else if b + 1 < 1536 then .misaligned else .outside
    | none => .outside

/-- The sizes of loads and stores. -/
def accessSize (n : Nat) : Bool := n == 1 || n == 2 || n == 4

/-- Byte enables of n bytes from a lane. -/
def laneEnables (lane n : Nat) : BitVec 4 := BitVec.ofNat 4 ((2 ^ n - 1) * 2 ^ lane)

end Sys2Proof.Machine
end

