-- ==== Sys2Proof/Machine/DramArray.lean ====
section
/-! DEFINITION. What DRAM holds: windows, blocks, the codes, one access block by block (R300 to R310, R320). -/

namespace Sys2Proof.Machine

/-- First system address of DRAM (R302). -/
abbrev dramBase : Nat := 0x4000000000

/-- The DRAM offset of a system address (R302). -/
def dramOf (addr : Nat) : Option Nat :=
  if dramBase ≤ addr ∧ addr < dramBase + 0x4000000000 then some (addr - dramBase) else none

/-- The window of a DRAM offset. -/
def dramWindow (o : Nat) : Nat := o / 0x40000000

/-- A channel. -/
def chanOf (s : State) (mc : Nat) : Chan := if mc = 0 then s.dram.ch0 else s.dram.ch1

/-- s with a channel replaced. -/
def setChan (s : State) (mc : Nat) (c : Chan) : State :=
  if mc = 0 then { s with dram := { s.dram with ch0 := c } } else { s with dram := { s.dram with ch1 := c } }

/-- A window is present (R302). -/
def windowPresent (s : State) (w : Nat) : Bool :=
  let c := chanOf s (w / 128)
  c.ready && decide (w % 128 < c.gib)

/-- MEM_WIN's FAST. -/
def windowFast (s : State) (w : Nat) : Bool := bit (dev s (0x80000 + 4 * w) 0).toNat 14

/-- A 4 KiB page is retired (R320). -/
def pageRetired (s : State) (o : Nat) : Bool := s.dram.retiredPages.contains (o / 4096)

/-- How a block reads: an unlisted one is poison in a filled window, else unwritten. -/
def blkOf (s : State) (b : Nat) : Blk :=
  match s.dram.blk.find? (·.1 == b) with
  | some e => e.2
  | none => if s.dram.poisonWin.contains (dramWindow (64 * b)) then .poison else .unwritten

/-- s with a block written. -/
def setBlk (s : State) (b : Nat) : State := { s with dram := { s.dram with blk := tset .unwritten s.dram.blk b .good } }

/-- Why a DRAM request ends at its arrival (R301, R303, R310, R320). -/
def dramRefusal (s : State) (p o : Nat) (acc : Acc) : Option Nat :=
  let w := dramWindow o
  let n := accSize acc
  let c := chanOf s (w / 128)
  if windowPart s w ≠ p then some stDenied
  else if c.fail then some stAbsent
  else if !c.ready then some stBusy
  else if !windowPresent s w then some stAbsent
  else if (upto (o / 4096) ((o + n - 1) / 4096 + 1 - o / 4096)).any s.dram.retiredPages.contains then some stDenied
  else if windowFast s w && accWrites acc && (o % 64 != 0 || n % 64 != 0) then some stInvalid
  else if s.dram.filling.contains w then some stBusy
  else none

/-- The bytes of a block as stored. -/
def blkBytes (s : State) (b : Nat) : List Byte := getBytes 0 s.dram.data (64 * b) 64

/-- An error of a read whose sub-channel, rank, device and count the manual leaves open is logged. -/
def freeErr (s : State) (n : Nat) (ue : Bool) (w src b : Nat) : State :=
  logError s ⟨3, ue, src, windowPart s w, if ue then 0xF else (Config.freeWord n 0).toNat % 10,
    if ue then 0 else 1 + (Config.freeWord n 1).toNat % 4, place (Config.freeBit n 0) 0, place (Config.freeBit n 1) 0,
    64 * b⟩

/-- What reading a block gives: `none` for UE; corrections and UE are logged (R305, R307, R309, R315). `src` is the
master or scrubber. -/
def readBlk (s : State) (b src : Nat) (sense : DramSense) : Option (List Byte) × State :=
  let w := dramWindow (64 * b)
  let err := fun (ue : Bool) (dev n sub rank : Nat) => logError s ⟨3, ue, src, windowPart s w, dev, n, sub, rank, 64 * b⟩
  let ue := fun (sub rank : Nat) => (none, err true 0xF 0 sub rank)
  match blkOf s b, sense with
  | .poison, .worse sub rank => ue sub rank
  | .poison, _ =>
    let (n, s') := draw s
    (none, freeErr s' n true w src b)
  | .unwritten, _ =>
    let (n, s') := draw s
    let data := some ((List.range 64).map fun i => Config.freeByte n i)
    if Config.freeBit n 2 then (none, freeErr s' n true w src b)
    else if Config.freeBit n 3 && !windowFast s w then (data, freeErr s' n false w src b)
    else (data, s')
  | .good, .clean => (some (blkBytes s b), s)
  | .good, .oneDevice d n sub rank =>
    if windowFast s w then ue sub rank else (some (blkBytes s b), err false d n sub rank)
  | .good, .worse sub rank => ue sub rank

/-- s with bytes stored in DRAM from an offset. -/
def putDram (s : State) (o : Nat) (bs : List Byte) : State :=
  { s with dram := { s.dram with data := setBytes 0 s.dram.data o bs } }

/-- A write inside one block: whole blocks are written, part of one is merged after a read (R308). -/
def writeBlk (s : State) (o src : Nat) (bs : List Byte) (sense : DramSense) : Nat × State :=
  let b := o / 64
  if bs.length = 64 then (stOk, setBlk (putDram s o bs) b)
  else
    match readBlk s b src sense with
    | (none, s) => (stUe, s)
    | (some old, s) => (stOk, setBlk (putDram (putDram s (64 * b) old) o bs) b)

/-- Bytes from an offset block by block, with what each block's access finds: reads. -/
def readDram (src : Nat) : Nat → State → Nat → Nat → List DramSense → Option (List Byte) × State
  | 0, s, _, _, _ => (some [], s)
  | fuel + 1, s, o, n, sense =>
    if n = 0 then (some [], s)
    else
      let k := min n (64 - o % 64)
      match readBlk s (o / 64) src (sense.headD .clean) with
      | (none, s) => (none, s)
      | (some bs, s) =>
        match readDram src fuel s (o + k) (n - k) (sense.drop 1) with
        | (some r, s) => (some ((bs.drop (o % 64)).take k ++ r), s)
        | x => x

/-- Bytes to an offset block by block: writes; the first failing block ends them. -/
def writeDram (src : Nat) : Nat → State → Nat → List Byte → List DramSense → Nat × State
  | 0, s, _, _, _ => (stOk, s)
  | fuel + 1, s, o, bs, sense =>
    if bs.isEmpty then (stOk, s)
    else
      let k := 64 - o % 64
      match writeBlk s o src (bs.take k) (sense.headD .clean) with
      | (0, s) => writeDram src fuel s (o + k) (bs.drop k) (sense.drop 1)
      | x => x

/-- A DRAM access is carried out: status, data read, and s. `sense` says block by block what the devices hold. -/
def dramAccess (s : State) (o src : Nat) (acc : Acc) (sense : List DramSense) : Nat × List Byte × State :=
  match acc with
  | .read n =>
    match readDram src (n + 1) s o n sense with
    | (some bs, s) => (stOk, bs, s)
    | (none, s) => (stUe, [], s)
  | .write bs =>
    let (st, s) := writeDram src (bs.length + 1) s o bs sense
    (st, [], s)
  | .amo op v =>
    match readDram src 5 s o 4 sense with
    | (some bs, s) =>
      let w := amoWord op (BitVec.ofNat 32 (leVal bs)) v
      let (st, s) := writeDram src 5 s o (leBytes 4 w.toNat) []
      (st, bs, s)
    | (none, s) => (stUe, [], s)

end Sys2Proof.Machine
end

