-- ==== Sys2Proof/Machine/SegBase.lean ====
section
/-! DEFINITION. Segment-port registers and rosters as the other chapters read them: roles, own node, wire size, cycle
bound (R264, R267, R269, R273). -/

namespace Sys2Proof.Machine

/-- A segment port. -/
def segOf (s : State) (k : Nat) : Seg := tget {} s.seg k

/-- s with a segment port changed. -/
def setSeg (s : State) (k : Nat) (f : Seg → Seg) : State := { s with seg := tmod {} s.seg k f }

/-- SEG_CTL, SEG_PLCA, SEG_MAXB and SEG_ABS of a port. -/
def segCtl (s : State) (k : Nat) : Nat := (dev s (0x60400 + 4 * k) 0).toNat
def segPlca (s : State) (k : Nat) : Nat := (dev s (0x60800 + 4 * k) 0x2000).toNat
def segMaxb (s : State) (k : Nat) : Nat := (dev s (0x60C00 + 4 * k) 0x0606).toNat
def segAbs (s : State) (k : Nat) : Nat := (dev s (0x61400 + 4 * k) 0x000A).toNat

/-- The port's PHY is on: a role, M5 to M7, its partition enabled (R265). -/
def segOn (s : State) (k : Nat) : Bool :=
  decide (k < 192) && s.mode.inRun && enabled s (segPart s k) && decide (fld (segCtl s k) 15 14 ≠ 0)

/-- ROLE: 0 OFF, 1 CSMA, 2 COORD, 3 FOLLOW. -/
def segRole (s : State) (k : Nat) : Nat := fld (segCtl s k) 15 14

/-- STATE of a port (SEG_STAT). A port that starts is CSMA, a coordinator ACTIVE, a follower FALLBACK until its first
valid BEACON (R265). -/
def segState (s : State) (k : Nat) : SegState :=
  if !segOn s k then .off
  else match (segOf s k).state, segRole s k with
  | .off, 1 => .csma
  | .off, 2 => .active
  | .off, _ => .fallback
  | x, _ => x

/-- PLCA node count minus one. -/
def segNcm1 (s : State) (k : Nat) : Nat := fld (segCtl s k) 13 8

/-- The ET9's own node ID on a port in PLCA. -/
def ownNode (s : State) (k : Nat) : Nat := if segRole s k = 2 then 0 else fld (segCtl s k) 7 2

/-- Roster entry e of a port (R269). -/
def rosterEntry (s : State) (k e : Nat) : Nat := (tget 0 s.roster (64 * k + e)).toNat

/-- Fields of a roster entry (Table 12-2). -/
def rValid (r : Nat) : Bool := bit r 127
def rRxen (r : Nat) : Bool := bit r 126
def rNode (r : Nat) : Nat := fld r 125 120
def rRxq (r : Nat) : Nat := fld r 115 96
def rMaxb (r : Nat) : Nat := fld r 95 80
def rMac (r : Nat) : Nat := fld r 47 0

/-- The valid roster entries of a port. -/
def rosterOf (s : State) (k : Nat) : List Nat :=
  ((List.range 64).map (rosterEntry s k)).filter rValid

/-- Roster entry e of a port as it stood at an F1 edge (R270, R271). -/
def rosterEntryAt (s : State) (k e f : Nat) : Nat :=
  match (segOf s k).rosterLog.find? fun x => x.2.1 == e && decide (f < x.1) with
  | some x => x.2.2.toNat
  | none => rosterEntry s k e

/-- The valid roster entries of a port at an F1 edge. -/
def rosterAt (s : State) (k f : Nat) : List Nat := ((List.range 64).map (rosterEntryAt s k · f)).filter rValid

/-- F1 cycles of a frame of L bytes, with preamble, SFD and FCS: 480 a byte (R267). -/
def frameCycles (l : Nat) : Nat := 480 * (max l 60 + 12)

/-- The frame that is on the medium now is taken as STRANGER (Table 12-3, R277). -/
def strangerNow (s : State) (k : Nat) : Bool :=
  match (segOf s k).onMedium with
  | some mac =>
    segState s k == .active
      && ((segOf s k).node == ownNode s k
        || !(rosterOf s k).any fun r => rMac r == mac.toNat && rNode r == (segOf s k).node)
  | none => false

/-- Wire size of a transfer of L bytes (R267). -/
def wireSize (l : Nat) : Nat := max l 60 + 24

/-- The cycle bound W of a port for a roster, in bit times (R273). -/
def cycleBoundOf (s : State) (k : Nat) (roster : List Nat) : Nat :=
  let window := segPlca s k / 256
  20 + total ((List.range (segNcm1 s k + 1)).map fun i =>
    window + 8 * (if i = ownNode s k then segMaxb s k
              else ((roster.find? fun r => rNode r == i).map rMaxb).getD 0))

/-- The cycle bound W of a port (R273). -/
def cycleBound (s : State) (k : Nat) : Nat := cycleBoundOf s k (rosterOf s k)

/-- s with a counter of a port incremented, saturating (R282): PART 0 word j at j, PART 1 word j at 8 + j. -/
def countSeg (s : State) (k j : Nat) : State :=
  setSeg s k fun g => { g with cnt := tmod 0 g.cnt j fun n => sat 16 (n + 1) }

/-- A bit of SEG_EVT sets; a rising bit raises the port's event (R283). -/
def segEvent (s : State) (k b : Nat) : State :=
  let w := (dev s (0x61800 + 4 * k) 0).toNat
  if bit w b then s else raiseEv (setDev s (0x61800 + 4 * k) 0 (BitVec.ofNat 16 (w + 2 ^ b))) (1024 + k)

/-- A Detuong link. -/
def linkOf (s : State) (k : Nat) : Link := tget {} s.link k

/-- A link may run: EN, and M5 to M7 (R294). -/
def linkOn (s : State) (k : Nat) : Bool :=
  decide (k < 8) && s.mode.inRun && bit (dev s (0x70100 + 4 * k) 0).toNat 15

/-- STATE of a link (Table 13-6). One that leaves OFF is in TRAIN. -/
def linkState (s : State) (k : Nat) : LinkState :=
  if !linkOn s k then .off
  else match (linkOf s k).state with
  | .off => .train
  | x => x

/-- s with a link changed. -/
def setLink (s : State) (k : Nat) (f : Link → Link) : State := { s with link := tmod {} s.link k f }

/-- s with a counter of a link incremented, saturating (R299). -/
def countLink (s : State) (k j : Nat) : State :=
  setLink s k fun l => { l with cnt := tmod 0 l.cnt j fun n => sat 16 (n + 1) }

end Sys2Proof.Machine
end

