-- ==== Sys2Proof/Machine/Qe.lean ====
section
/-! DEFINITION. The queue engine: queues, quotas, submissions, admission and positions (R212 to R228, R234, R431). -/

namespace Sys2Proof.Machine

/-! ### Queues (Table 10-2) -/

/-- A queue. -/
def queueOf (s : State) (q : Nat) : Queue := tget {} s.qe.queues q

/-- s with a queue changed. -/
def setQueue (s : State) (q : Nat) (f : Queue → Queue) : State :=
  { s with qe := { s.qe with queues := tmod {} s.qe.queues q f } }

/-- The fields of a queue's configuration. -/
def qTag (c : Nat) : Nat := fld c 95 80
def qDepth (c : Nat) : Nat := fld c 79 64
def qRate (c : Nat) : Nat := fld c 63 48
def qBurst (c : Nat) : Nat := fld c 47 32
def qLead (c : Nat) : Nat := fld c 31 24
def qRetry (c : Nat) : Nat := fld c 23 20
def qLateact (c : Nat) : Bool := bit c 19
def qSpill (c : Nat) : Bool := bit c 18
def qClass (c : Nat) : Nat := fld c 17 16
def qEgress (c : Nat) : Nat := fld c 12 0

/-- The configuration of a queue. -/
def qcfg (s : State) (q : Nat) : Nat := (queueOf s q).cfg.toNat

/-- QE_PQUOTA, QE_SQUOTA, QE_FSPSHARE and QE_SPILL of a partition. -/
def pquota (s : State) (p : Nat) : Nat := (dev s (0x40140 + 4 * p) (if p = 0 then 0x8000 else 0)).toNat
def squota (s : State) (p : Nat) : Nat := (dev s (0x40400 + 4 * p) (if p = 0 then 0x2000 else 0)).toNat
def fspShare (s : State) (p : Nat) : Nat := (dev s (0x40180 + 4 * p) (if p = 0 then 0x0080 else 0)).toNat
def spillReg (s : State) (p : Nat) : Nat := (dev s (0x401C0 + 4 * p) 0).toNat

/-- QE_ADM_CTL of a partition, and its horizon in frames. -/
def admCtl (s : State) (p : Nat) : Nat := (pw s p 0x40000 0x8004).toNat
def horizon (s : State) (p : Nat) : Nat := max 1 (fld (admCtl s p) 11 0)

/-- An egress belongs to a partition (R215, R235). -/
def egressOwned (s : State) (p n : Nat) : Bool :=
  match egressOf n with
  | some (.seg k) => segPart s k == p
  | some (.link k) => decide (timShare s k p > 0)
  | some (.fsp k) => fspPart s k == p
  | some (.host g) => ringPart g == p
  | _ => false

/-- An egress that a queue may have (Table 10-2). -/
def egressValid (n : Nat) : Bool :=
  match egressOf n with
  | some (.mc _) => false
  | some _ => true
  | none => false

/-! ### Cells held (R216, R218, R234) -/

/-- Cells of a transfer of LEN + 1 bytes (R216). -/
def cellsOf (len : Nat) : Nat := cdiv (len + 1) 256

/-- A leg that has not ended, or that is being delivered late. -/
def Leg.live (l : Leg) : Bool := decide (l.left > 0)

/-- Cells that a transfer holds: undelivered ones, or the whole data of a multicast until every leg has ended. -/
def Xfer.held (x : Xfer) : Nat :=
  if x.sub.legs = 0 then total (x.legs.map (·.left))
  else if x.legs.any Leg.live || !x.undecided.isEmpty && !x.legs.isEmpty then cellsOf x.sub.len else 0

/-- The cells that a transfer holds in the cell buffer, by their numbers. -/
def Xfer.bufferCells (x : Xfer) : List Nat :=
  (upto (cellsOf x.sub.len - x.held) x.held).filter fun i => !x.spill.any (·.1 == i)

/-- The cell at a place of the cell buffer: held cells stand in the order of their transfers from place 0 on, where the
manual places them nowhere (DESIGN CHOICE, log 58). -/
def cellIn : List Xfer → Nat → Option (Xfer × Nat)
  | [], _ => none
  | x :: xs, k =>
    let cs := x.bufferCells
    if k < cs.length then some (x, nthD 0 cs k) else cellIn xs (k - cs.length)

/-- The cell at a place. -/
def cellAt (s : State) (k : Nat) : Option (Xfer × Nat) := cellIn s.qe.xfers k

/-- The partition whose range holds a QID; P0 where none does. -/
def qidPart (s : State) (q : Nat) : Nat := ((List.range 16).find? (ownsQid s · q)).getD 0

/-- A read of a word of a queue-table entry found an error: source, uncorrectable or not, bits corrected (Table 14-3). -/
def logQueue (s : State) (q w src : Nat) (ue : Bool) (n : Nat) : State :=
  logError s ⟨1, ue, src, qidPart s q, 0xF, n, 0, 0, q * 4 + w⟩

/-- A read of a word of the cell buffer found an error. -/
def logCell (s : State) (p addr src : Nat) (ue : Bool) (n : Nat) : State :=
  logError s ⟨2, ue, src, p, 0xF, n, 0, 0, addr⟩

/-- Promised cells that a partition holds. -/
def promisedHeld (s : State) (p : Nat) : Nat :=
  total ((s.qe.xfers.filter fun x => x.sub.part == p && x.charge == .promised).map Xfer.held)

/-- Shaped and best-effort cells that a partition holds in the cell buffer. -/
def shapedHeld (s : State) (p : Nat) : Nat :=
  total ((s.qe.xfers.filter fun x => x.sub.part == p && x.charge == .shaped).map fun x => x.held - x.spill.length)

/-- Cells that a queue holds. -/
def queueHeld (s : State) (q : Nat) : Nat :=
  total (s.qe.xfers.map fun x => total ((x.legs.filter (·.qid == q)).map (·.left)))

/-- Some promised cell is admitted and neither delivered nor reported (R198). -/
def promisesOut (s : State) : Bool :=
  s.qe.xfers.any fun x => x.legs.any fun l => l.cls == 1 && l.ending == .running && decide (l.left > 0)

/-- Some promised cell is booked on an egress. -/
def bookedOn (s : State) (e : Nat) : Bool :=
  s.qe.xfers.any fun x => x.legs.any fun l => l.egress == e && !l.booked.isEmpty

/-- Some cell is held for an egress. -/
def heldOn (s : State) (e : Nat) : Bool := s.qe.xfers.any fun x => x.legs.any fun l => l.egress == e && l.live

/-- Some queue with a class names an egress. -/
def queueNames (s : State) (e : Nat) : Bool :=
  s.qe.queues.any fun x => qClass x.2.cfg.toNat != 0 && qEgress x.2.cfg.toNat == e

/-! ### Register checks (R214 to R216, R222, R431) -/

/-- Why a queue configuration commit is refused (R214, R215). `c` is the new configuration. -/
def queueCheck (s : State) (p q c : Nat) : Option Nat :=
  let k := qClass c
  let old := qcfg s q
  if !ownsQid s p q then some stDenied
  else if fld c 15 13 ≠ 0
      || (k != 0 && (qDepth c == 0 || !egressValid (qEgress c) || !egressOwned s p (qEgress c)))
      || (k == 1 && qLead c == 0) || (k == 2 && qBurst c == 0) then some stInvalid
  else if (queueHeld s q > 0 ∨ (queueOf s q).old.isSome) ∧ (k ≠ qClass old ∨ qEgress c ≠ qEgress old) then
    some stBusy
  else none

/-- The configuration words of a view as 96 bits. -/
def qcfgWords (s : State) (v : View) : Nat := wordsVal ((List.range 6).map fun k => vw s v (0x40200 + 4 * k) 0)

/-- A queue configuration commit takes effect: the bucket starts full (R213, R215). -/
def queueApply (s : State) (q c : Nat) : State :=
  setQueue s q fun x => { x with cfg := BitVec.ofNat 96 c, dead := false, bad := false, tokens := if qClass c = 2 then qBurst c * 1000 else 0 }

/-- QE_QRANGE: overlap is INVALID; a queue with a class that would leave the range is BUSY (R214). -/
def qrangeCheck (s : State) (p val : Nat) : Option Nat :=
  let b := val / 256
  let l := val % 256
  let overlaps := decide (b ≤ l) && (List.range 16).any fun q =>
    let r := qrange s q
    q != p && decide (r.1 < r.2) && decide (b * 4096 < r.2) && decide (r.1 < (l + 1) * 4096)
  if overlaps then some stInvalid
  else if s.qe.queues.any fun x => qClass x.2.cfg.toNat != 0 && ownsQid s p x.1
      && !(decide (b * 4096 ≤ x.1 ∧ x.1 < (l + 1) * 4096)) then some stBusy
  else none

/-- The sum of a per-partition register with one value replaced. -/
def sumWith (f : Nat → Nat) (p val : Nat) : Nat := total ((List.range 16).map fun q => if q = p then val else f q)

/-- QE_PQUOTA (R216). -/
def pquotaCheck (s : State) (p val : Nat) : Option Nat :=
  let sum := sumWith (pquota s) p val
  if sum > 61440 ∨ sum + total ((List.range 16).map (squota s)) > 65536 then some stInvalid
  else if val < promisedHeld s p then some stBusy
  else none

/-- QE_SQUOTA (R216). -/
def squotaCheck (s : State) (p val : Nat) : Option Nat :=
  if sumWith (squota s) p val + total ((List.range 16).map (pquota s)) > 65536 then some stInvalid
  else if val < shapedHeld s p then some stBusy
  else none

/-- QE_FSPSHARE. -/
def fspShareCheck (s : State) (p val : Nat) : Option Nat :=
  if sumWith (fspShare s) p (val % 256) > 128 then some stInvalid else none

/-- QE_SPILL: a window of another partition is INVALID with EN = 1. -/
def spillCheck (s : State) (p val : Nat) : Option Nat :=
  if bit val 15 && windowPart s (val % 256) != p then some stInvalid else none

/-- QE_FSPB and QE_FSPR of an FSP. -/
def fspB (s : State) (k : Nat) : Nat := (dev s (0x41000 + 4 * k) 0).toNat
def fspR (s : State) (k : Nat) : Nat := (dev s (0x41400 + 4 * k) 0).toNat

/-- An FSP. -/
def fspOf (s : State) (k : Nat) : Fsp := tget {} s.qe.fsp k

/-- s with an FSP changed. -/
def setFsp (s : State) (k : Nat) (f : Fsp → Fsp) : State :=
  { s with qe := { s.qe with fsp := tmod {} s.qe.fsp k f } }

/-- A word is driven in this F1 cycle, or will be in the next ones (R220, R221). -/
def Fsp.speaking (f : Fsp) : Bool := !f.outq.isEmpty || f.sig.getLsbD 16

/-- QE_FSPB: a bank that is not one or not the partition's is INVALID; a change with entries unread is BUSY (R222). -/
def fspBCheck (s : State) (k val : Nat) : Option Nat :=
  let b := fld val 10 0
  if b ≥ 1536 ∨ bankPart s b ≠ fspPart s k then some stInvalid
  else if bit (fspB s k) 15 && decide ((fspOf s k).unread > 0) && val != fspB s k then some stBusy
  else none

/-- A QE_FSPB write takes effect: setting EN starts the ring at its first entry with nothing announced; EN = 0 holds
it there (R222). -/
def fspBApply (s : State) (k : Nat) (val : Word) : State :=
  let was := bit (fspB s k) 15
  let s := setDev s (0x41000 + 4 * k) 0 val
  if bit val.toNat 15 && was then s else setFsp s k fun f => { f with head := 0, unread := 0, reader := none }

/-- QE_FSPR. -/
def fspRCheck (s : State) (k val : Nat) : Option Nat :=
  if fld val 15 13 > 4 then some stInvalid
  else if bit (fspB s k) 15 && decide ((fspOf s k).unread > 0) && val != fspR s k then some stBusy
  else none

/-- A plane's type-4 frame of a region names a signal of an FSP (Tables 4-6 and 4-7). -/
def regionNamesFsp (p : Plane) (r k : Nat) : Bool :=
  (List.range 128).any fun w => match x5Num p r w with
    | some n => if w < 64 then decide (896 + 20 * k ≤ n ∧ n < 916 + 20 * k) else decide (1152 + 4 * k ≤ n ∧ n < 1156 + 4 * k)
    | none => false

/-- Regions staged in any group, or in one group of a partition. -/
def stagedRegions (s : State) : List Nat :=
  (s.fab.shadowState.filter fun e => match e.2 with | .staged _ => true | _ => false).map (·.1)

/-- An FSP is in use (R431). -/
def fspInUse (s : State) (k : Nat) : Bool :=
  (configured s.fab.active).any (fun r => regionNamesFsp s.fab.active r k)
    || (stagedRegions s).any (fun r => regionNamesFsp s.fab.shadow r k)
    || bit (fspB s k) 15 || queueNames s (200 + k)

/-- QE_FSPOWN (R431). -/
def fspOwnCheck (s : State) (i val : Nat) : Option Nat :=
  let own := fun j => fld val (4 * j + 3) (4 * j)
  if s.fab.pers ≠ 0 ∧ (List.range 4).any (fun j => own j != 0) then some stInvalid
  else if (List.range 4).any fun j => own j != fspPart s (4 * i + j) && fspInUse s (4 * i + j) then some stBusy
  else none

/-! ### Counters and events (R236, R237) -/

/-- s with a queue's counters changed. -/
def countQueue (s : State) (q : Nat) (f : QCnt → QCnt) : State := setQueue s q fun x => { x with cnt := f x.cnt }

/-- Code of a LATE cause (Table 10-8). -/
def LateCause.code : LateCause → Nat
  | .power => 7 | .capture => 4 | .ue => 5 | .hostStall => 6 | .partnerAbsent => 3 | .stranger => 2 | .medium => 1

/-- Rank of a LATE cause: the highest in Table 10-8 is 0. -/
def LateCause.rank : LateCause → Nat
  | .power => 0 | .capture => 1 | .ue => 2 | .hostStall => 3 | .partnerAbsent => 4 | .stranger => 5 | .medium => 6

/-! ### Submissions (R217, R223) -/

/-- The legs that a LEGS field names (Table 10-3). -/
def legsOf (w : Word) : List Nat := if w = 0 then [0] else (List.range 16).filter fun i => w.getLsbD i

/-- A submission arrives at the engine (R217). -/
def submit (s : State) (sub : Submission) : State :=
  let data := match sub.src with
    | .seg _ | .link _ _ => some sub.data
    | _ => none
  let x : Xfer := { tid := s.qe.nextTid, sub := sub, undecided := legsOf sub.legs, legs := [], refusals := []
                    charge := .none, data := data, srcFail := none, decided := false }
  { s with qe := { s.qe with xfers := s.qe.xfers ++ [x], nextTid := s.qe.nextTid + 1 } }

/-- s with a transfer replaced. -/
def setXfer (s : State) (x : Xfer) : State :=
  { s with qe := { s.qe with xfers := s.qe.xfers.map fun y => if y.tid = x.tid then x else y } }

/-- The transfer of a number. -/
def xferOf (s : State) (tid : Nat) : Option Xfer := s.qe.xfers.find? (·.tid == tid)

/-- s without a transfer. -/
def dropXfer (s : State) (tid : Nat) : State :=
  { s with qe := { s.qe with xfers := s.qe.xfers.filter (·.tid != tid) } }

/-! ### Positions (R225, R226, R254, R274) -/

/-- HCAP of a link state (Table 11-7). -/
def hcapOf (rate width : Nat) : Nat :=
  if rate < 1 ∨ 5 < rate ∨ width = 0 then 0 else 96 * width / 8 / 2 ^ (5 - rate)

/-- The effective host share of a partition (R254). -/
def hostShare (s : State) (p : Nat) : Nat :=
  if s.host.hcap < 96 then timShare s 8 p * s.host.hcap / 96 else timShare s 8 p

/-- The entries that govern a slot of a partition: the active page, or the page scheduled for a boundary at or before
it (R226). -/
def entriesAt (s : State) (p t : Nat) : List Nat :=
  let flipped := match (almOf s p).flip with
    | some f => match f.boundary with
      | some b => decide (b ≤ t)
      | none => false
    | none => false
  ((if flipped then inactiveEntries s p else activeEntries s p)).map (·.2)

/-- An entry acts in the slot that starts at a SYSTIME (R201). -/
def actsAt (s : State) (t e : Nat) : Bool :=
  appliesIn e (frameRaw s t % hlen s) && coversSlot e (t % (flen s * 1000) / 1000)

/-- An egress whose entries grant nothing now: a link that is not acting (R297). -/
def egressActs (s : State) (n : Nat) : Bool :=
  match egressOf n with
  | some (.link k) => (linkOf s k).acts
  | _ => true

/-- An egress whose entries grant positions at admission (R297). -/
def egressGrants (s : State) (n : Nat) : Bool :=
  match egressOf n with
  | some (.link k) => (linkOf s k).grants
  | _ => true

/-- QUEUE entries of a queue on an egress. -/
def queueEntry (q n e : Nat) : Bool := aKind e == 1 && aQid e == q && aEgress e == n

/-- Bookings in a slot that a test on partition and leg picks out. -/
def bookedIn (s : State) (t : Nat) (f : Nat → Leg → Bool) : Nat :=
  total (s.qe.xfers.map fun x => total (x.legs.map fun l =>
    if f x.sub.part l then (l.booked.filter (·.slot == t)).length else 0))

/-- Positions still free for a queue in one slot of a link, an FSP or the host (R225). -/
def freePositions (s : State) (p q n t : Nat) : Nat :=
  let granted := total (((entriesAt s p t).filter fun e => queueEntry q n e && actsAt s t e).map aCap)
  let mine := bookedIn s t fun _ l => l.qid == q && l.egress == n
  let left := match egressOf n with
    | some (.link k) => timShare s k p - bookedIn s t fun p' l => p' == p && l.egress == n
    | some (.fsp _) =>
      min (4 - bookedIn s t fun _ l => l.egress == n)
        (fspShare s p - bookedIn s t fun p' l => p' == p && decide (200 ≤ l.egress ∧ l.egress < 456))
    | some (.host _) => hostShare s p - bookedIn s t fun p' l => p' == p && decide (456 ≤ l.egress)
    | _ => 0
  min (granted - mine) left

/-- The slots of the next free positions from a slot edge on, for a number of cells (R226). -/
def takePositions (free : Nat → Nat) : Nat → Nat → Nat → Option (List Nat)
  | _, _, 0 => some []
  | 0, _, _ + 1 => none
  | fuel + 1, t, n + 1 =>
    let k := min (n + 1) (free t)
    (takePositions free fuel (t + 1000) (n + 1 - k)).map fun r => List.replicate k t ++ r

/-- A transfer is booked on a segment port in some part of a window (R225, R227, R274). -/
def segTaken (s : State) (k a b : Nat) : Bool :=
  s.qe.xfers.any fun x => x.legs.any fun l => l.egress == k && l.booked.any fun c => decide (c.slot < b ∧ a < c.finish)

/-- A segment position of an entry in one frame is usable by a transfer (R274). -/
def segUsable (s : State) (k cfg len start stop e f : Nat) : Option Booking :=
  let a := f * (flen s * 1000) + aOffset e * 1000
  let b := a + aLength e * 1000
  let r := qRetry cfg
  if appliesIn e (f % hlen s) && decide (start ≤ a ∧ b ≤ stop)
      && decide ((r + 1) * (cycleBound s k + 8 * wireSize (len + 1)) * 100 ≤ aLength e * 1000)
      && !segTaken s k a b
  then some { slot := a, finish := b } else none

/-- The first usable segment position, frame by frame. -/
def segPosition (s : State) (k cfg len start stop : Nat) (es : Nat → List Nat) : Nat → Nat → Option Booking
  | 0, _ => none
  | n + 1, f =>
    match firstSome (segUsable s k cfg len start stop · f) (es (f * (flen s * 1000))) with
    | some b => some b
    | none => segPosition s k cfg len start stop es n (f + 1)

/-- What booking answers: positions, or a cause of Table 10-5. -/
inductive Booked where
  | ok (bs : List Booking)
  | refuse (cause : Nat)
  deriving DecidableEq, Repr

/-- The regions of a partition staged in a group. -/
def groupRegions (s : State) (p cg : Nat) : List Nat :=
  (s.fab.shadowState.filter fun e => e.2 == .staged cg && regionPart s e.1 == p).map (·.1)

/-- Queues whose egress is an FSP that a type-4 frame of a group region names, active or staged (R176). -/
def affectedQueues (s : State) (p cg : Nat) : List Nat :=
  let rs := groupRegions s p cg
  (s.qe.queues.filter fun q =>
    qClass q.2.cfg.toNat != 0 && (match egressOf (qEgress q.2.cfg.toNat) with
      | some (.fsp k) => rs.any fun r => regionNamesFsp s.fab.active r k || regionNamesFsp s.fab.shadow r k
      | _ => false)).map (·.1)

/-- The boundary of the scheduled swap that affects a queue (R176). -/
def swapAhead (s : State) (q : Nat) : Option Nat :=
  firstSome (fun g => match g.2.sched with
    | some r => if (affectedQueues s (g.1 / 4) (g.1 % 4)).contains q then some r.boundary else none
    | none => none) s.swp.groups

/-- A pending epoch opens for a swap at a boundary (R177). -/
def openPending (s : State) (b : Nat) (q : Nat) : State :=
  setQueue s q fun x => { x with old := some ⟨true, (x.epoch + 1) % 256, qEgress x.cfg.toNat, b⟩ }

/-- The same, for a queue without a draining or pending epoch: one that became affected after the swap was accepted. A
queue that a migration brought here and that still drains keeps its epoch (DESIGN CHOICE, log 108). -/
def openIfNone (b : Nat) (s : State) (q : Nat) : State :=
  if (queueOf s q).old.isNone then openPending s b q else s

/-- s with the pending epoch open that an admission to a queue enters (R177). -/
def openAhead (s : State) (q : Nat) : State :=
  match swapAhead s q with
  | some b => openIfNone b s q
  | none => s

/-- The epoch that a new admission enters, the earliest time at which its delivery can start, and its egress
(R176 to R180). -/
def openEpoch (s : State) (q : Nat) : Nat × Nat × Nat :=
  let x := queueOf s q
  let e := qEgress x.cfg.toNat
  match x.old with
  | none => (x.epoch, x.epochStart, e)
  | some o => if o.pending then (o.epoch, o.deadline + 14, e) else (x.epoch, o.deadline, e)

/-- The slot of a queue's last booked position; 0 where none is booked (R226). -/
def lastBooked (s : State) (q : Nat) : Nat :=
  s.qe.xfers.foldl (fun m x => x.legs.foldl (fun m l =>
    if l.qid = q then l.booked.foldl (fun m b => max m b.slot) m else m) m) 0

/-- Positions for a promised transfer of n cells (R226, R274): HORIZON, NORES or the bookings. -/
def book (s : State) (p q len : Nat) : Booked :=
  let cfg := qcfg s q
  let t := sysNow s
  let (_, epochStart, n) := openEpoch s q
  let from_ := max (t + qLead cfg * 1000) epochStart
  let start := cdiv from_ 1000 * 1000
  let stop := (frameRaw s t + horizon s p) * (flen s * 1000)
  let first := max start (lastBooked s q)
  let sched := match (almOf s p).flip with
    | some f => if f.boundary.isSome then inactiveEntries s p else []
    | none => []
  let grants := ((activeEntries s p ++ sched).map (·.2)).filter (queueEntry q n)
  if grants.isEmpty || !egressGrants s n then .refuse 7
  else match egressOf n with
  | some (.seg k) =>
    let es := fun a => (entriesAt s p a).filter (queueEntry q n)
    let fits := grants.any fun e =>
      decide ((qRetry cfg + 1) * (cycleBound s k + 8 * wireSize (len + 1)) * 100 ≤ aLength e * 1000)
    if segState s k ≠ .active ∨ !fits then .refuse 7
    else match segPosition s k cfg len first stop es (horizon s p + 1) (frameRaw s t) with
      | some b => .ok [{ b with seq := s.qe.nextSeq }]
      | none => .refuse 8
  | _ =>
    match takePositions (freePositions s p q n) ((stop - first) / 1000) first (cellsOf len) with
    | some ts => .ok (ts.map fun t => { slot := t, finish := t + 1000, seq := s.qe.nextSeq })
    | none => .refuse 8

/-! ### Admission (Table 10-5, R234) -/

/-- A promised submission to a link is refused by R191 or R192. -/
def linkTimeBad (s : State) : Bool := if isFollower s then s.clk.oos else s.clk.refFault

/-- A transfer is longer than its egress accepts (R252, R267). -/
def tooLong (s : State) (n len : Nat) : Bool :=
  match egressOf n with
  | some (.seg k) => decide (len + 1 > 1518) || decide (wireSize (len + 1) > segMaxb s k)
  | some (.host g) => decide (len + 1 > 256 * fld (ringOf s g).cfg.toNat 152 144)
  | _ => false

/-- A submission's LIMIT as SYSTIME, 0 for none: an FSP entry gives RLIM, in slots from the slot edge before the decision
(R222). -/
def limitOf (s : State) (x : Xfer) : Nat :=
  match x.sub.src with
  | .fsp _ _ => if x.sub.limit = 0 then 0 else s.clk.systime + x.sub.limit * 1000
  | _ => x.sub.limit

/-- Cells of a partition can go to its spill window: EN, and a window that DRAM serves (R216). -/
def canSpill (s : State) (p : Nat) : Bool :=
  let w := spillReg s p % 256
  bit (spillReg s p) 15 && windowPresent s w && !s.dram.filling.contains w

/-- The first free 256-byte places of a partition's spill window, from a place on: no spilled cell stands there, and its
page is not retired (R320). Which place a cell takes is the model's choice (DESIGN CHOICE, log 112). -/
def spillFree (s : State) (base : Nat) (used : List Nat) : Nat → Nat → Nat → List Nat
  | 0, _, _ => []
  | _, _, 0 => []
  | fuel + 1, k, n + 1 =>
    let o := base + 256 * k
    if used.contains o || pageRetired s o then spillFree s base used fuel (k + 1) (n + 1)
    else o :: spillFree s base used fuel (k + 1) n

/-- Places in a partition's spill window for n cells. -/
def spillPlaces (s : State) (p n : Nat) : List Nat :=
  let used := s.qe.xfers.flatMap fun x => x.spill.map (·.2)
  spillFree s (spillReg s p % 256 * 0x40000000) used (n + used.length + 16 * s.dram.retiredPages.length) 0 n

/-- The decision for one leg: status and cause of its refusal, or its bookings, charge and number of spilled cells. -/
inductive Decision where
  | refuse (status cause : Nat)
  | accept (bs : List Booking) (charge : Charge) (spilled : Nat)
  deriving DecidableEq, Repr

/-- One enqueue operation (Table 10-5 in its order; R226, R228, R234). -/
def decideLeg (s : State) (x : Xfer) (i : Nat) : Decision :=
  let p := x.sub.part
  let q := x.sub.qid + i
  let n := cellsOf x.sub.len
  let cfg := qcfg s q
  let cls := qClass cfg
  let others := promisedHeld s p
  if !ownsQid s p q then .refuse stDenied 1
  else if !enabled s p then .refuse stDenied 2
  else if cls = 0 ∨ (queueOf s q).dead ∨ !bit (admCtl s p) 15 ∨ entryPast s 3 then .refuse stRefused 2
  else if tooLong s (qEgress cfg) x.sub.len then .refuse stInvalid 3
  else if queueHeld s q + n > qDepth cfg then .refuse stBusy 4
  else if cls = 1 then
    if x.charge ≠ .promised ∧ others + n > pquota s p then .refuse stRefused 5
    else if !runActive s || !bit (timCtlNext s) 15 || (decide (192 ≤ qEgress cfg ∧ qEgress cfg < 200) && linkTimeBad s) then
      .refuse stRefused 6
    else match book s p q x.sub.len with
    | .refuse c => .refuse stRefused c
    | .ok bs =>
      let promise := (bs.getLast?.map (·.finish)).getD 0
      if limitOf s x ≠ 0 ∧ promise > limitOf s x then .refuse stRefused 9
      else .accept bs .promised 0
  else if x.charge ≠ .none then .accept [] x.charge 0
  else
    let room := squota s p - shapedHeld s p
    if n ≤ room then .accept [] .shaped 0
    else if qSpill cfg && canSpill s p then .accept [] .shaped (n - room)
    else .refuse stBusy 4

/-- A transfer came by a ring: ring pair and TAG. -/
def xferRing (x : Xfer) : Option (Nat × Word) :=
  match x.sub.src with
  | .ring g t => some (g, t)
  | _ => none

/-- An entry for a transfer on its ring pair. -/
def xferCpl (s : State) (x : Xfer) (kind status cause value aux release : Nat) : State :=
  match xferRing x with
  | some (g, t) => queueCpl s ⟨g, kind, status, cause, t, value, aux, release, [], [], none⟩
  | none => s

/-- A completion word toward the fabric waits (R221). -/
def fspCpl (s : State) (x : Xfer) (status cause : Nat) : State :=
  match x.sub.src with
  | .fsp k i => setFsp s k fun f =>
      { f with cpl := f.cpl ++ [BitVec.ofNat 16 (status % 16 * 4096 + cause % 16 * 256 + i % 256)] }
  | _ => s

/-- A bitmap of leg indices. -/
def legMap (is : List Nat) : Nat := is.foldl (fun n i => Nat.lor n (2 ^ i)) 0

/-- Bytes of cell i of a transfer; the last is short. -/
def cellBytes (x : Xfer) (i : Nat) : List Byte := (((x.data.getD []).take (x.sub.len + 1)).drop (256 * i)).take 256

/-- A cell padded with zero bytes (R216). -/
def padCell (bs : List Byte) : List Byte := bs ++ List.replicate (256 - bs.length) 0

/-- The running shaped and best-effort legs of a transfer end with a status and cause. -/
def endUnpromised (s : State) (x : Xfer) (st cause : Nat) : State :=
  setXfer s { x with spill := [], legs := x.legs.map fun l =>
    if l.cls ≠ 1 ∧ l.ending = .running then { l with left := 0, ending := .failed st cause } else l }

/-- The source of a transfer cannot be read: shaped and best-effort legs end with the status, with cause SOURCE for an
FSP; promised ones are reported LATE in their time (R222, R255). -/
def sourceFailed (s : State) (x : Xfer) (st : Nat) : State :=
  let cause := match x.sub.src with | .fsp _ _ => 10 | _ => 0
  endUnpromised s { x with srcFail := some st, reader := none } st cause

/-- Spilled cells are written to their places in DRAM (R216): whole aligned blocks, which no read precedes. -/
def storeSpill (s : State) (x : Xfer) : State :=
  x.spill.foldl (fun s c => (dramAccess s c.2 6 (.write (padCell (cellBytes x c.1))) []).2.2) s

/-- The data of a transfer are in the cell buffer, and its spilled cells in DRAM. -/
def dataIn (s : State) (x : Xfer) (ds : List Byte) : State :=
  let x := { x with data := some ds, reader := none }
  storeSpill (setXfer s x) x

/-- The source data of an admitted transfer are fetched: host memory by DMA, or a bank through port B, 32 bits after 32
bits (R222, R255; DESIGN CHOICE, log 113). -/
def fetchSource (s : State) (x : Xfer) : State :=
  if x.data.isSome then storeSpill s x
  else match x.sub.src with
  | .ring _ _ => hostRead s (.src x.tid) x.sub.addr (x.sub.len + 1)
  | .fsp k _ =>
    if x.srcFail.isSome || x.reader.isSome then s
    else
      let bank := fld (fspB s k) 10 0
      let (r, s) := runStart s 6 x.sub.part (0x40000000 + bankKey bank x.sub.addr) (x.sub.len + 1) true none
      setXfer s { x with reader := some r }
  | _ => s

/-- The last leg has been decided: ADMIT, or the one completion of a refused transfer (R218, R228, Table 11-4). -/
def decided (s : State) (x : Xfer) : State :=
  let x := { x with decided := true }
  let s := setXfer s x
  if x.legs.isEmpty then
    let (st, c) := match x.refusals.head? with
      | some r => (r.2.1, r.2.2)
      | none => (stRefused, 0)
    let st := if x.sub.legs = 0 then st else stRefused
    let s := xferCpl s x kFinal st c 0 0 2
    let s := fspCpl s x st c
    let s := match x.sub.src with
      | .seg k => countSeg s k 14
      | .link k _ => countLink s k 2
      | _ => s
    dropXfer s x.tid
  else
    let promised := x.legs.filter (·.cls == 1)
    let promise := promised.foldl (fun m l => max m l.promise) 0
    let st := if x.refusals.isEmpty then stOk else stPartial
    let aux := if x.sub.legs = 0 then 0 else legMap (x.legs.map (·.idx))
    let s := if promised.isEmpty then s else xferCpl s x kAdmit st 0 promise aux 1
    fetchSource s x

/-- The engine reads a queue-table entry that holds an uncorrectable word: the queue is disabled until its next commit, and
its held cells end (R315, Table 14-4). -/
def readQueue (s : State) (q : Nat) : State :=
  if !(queueOf s q).bad || (queueOf s q).dead then s
  else
    let s := setQueue (logQueue s q 0 6 true 0) q fun x => { x with dead := true }
    { s with qe := { s.qe with xfers := s.qe.xfers.map fun x => { x with legs := x.legs.map fun l =>
        if l.qid = q ∧ l.live ∧ l.ending = .running then
          (if l.cls = 1 then { l with facts := l.facts ++ [.ue], booked := l.booked.map fun b => { b with missed := true } }
           else { l with left := 0, ending := .failed stUe 0 })
        else l } } }

/-- The decision of one enqueue operation, leg i of a transfer, takes effect (R224, R228). -/
def enqueue (s : State) (x : Xfer) (i : Nat) : State :=
  let rest := x.undecided.filter (· != i)
  if !x.undecided.contains i then s
  else
    let q := x.sub.qid + i
    let n := cellsOf x.sub.len
    let s := openAhead (readQueue s q) q
    let x := (xferOf s x.tid).getD x
    match decideLeg s x i with
    | .refuse st c =>
      let s := countQueue s q fun k => { k with refused := sat 16 (k.refused + 1) }
      let x := { x with undecided := rest, refusals := x.refusals ++ [(i, st, c)] }
      let s := setXfer s x
      if rest.isEmpty then decided s x else s
    | .accept bs charge spilled =>
      let cfg := qcfg s q
      let (ep, _, e) := openEpoch s q
      let promise := (bs.getLast?.map (·.finish)).getD 0
      let leg : Leg := { idx := i, qid := q, cls := qClass cfg, egress := e, epoch := ep, left := n, booked := bs
                         promise := promise, tag := BitVec.ofNat 16 (qTag cfg), lateact := qLateact cfg, retry := qRetry cfg
                         facts := [], attempts := 0, rxbuf := none, ending := .running }
      let spill := if charge = .promised then [] else if spilled = 0 then x.spill
        else (upto (n - spilled) spilled).zip (spillPlaces s x.sub.part spilled)
      let x := { x with undecided := rest, legs := x.legs ++ [leg], charge := charge, spill := spill }
      let s := setXfer s x
      let s := if bs.isEmpty then s else { s with qe := { s.qe with nextSeq := s.qe.nextSeq + 1 } }
      let s := countQueue s q fun k => { k with admitted := sat 32 (k.admitted + 1) }
      let s := if charge = .promised ∧ promisedHeld s x.sub.part = pquota s x.sub.part then
          raiseEv s (1552 + x.sub.part) else s
      if rest.isEmpty then decided s x else s

/-- The legs of a transfer whose operations have not started. -/
def unstarted (s : State) (x : Xfer) : List Nat :=
  x.undecided.filter fun i => !s.qe.ops.any fun o => o.tid == x.tid && o.leg == i

/-- The operation that the engine starts in this F1 cycle: of the partition of the cycle, else of the next one in
round-robin order with a submission waiting; in order of arrival, legs ascending (R223). -/
def nextOperation (s : State) : Option EnqOp :=
  firstSome (fun i =>
    let p := (s.clk.f1 + i) % 16
    (s.qe.xfers.find? fun x => x.sub.part == p && !(unstarted s x).isEmpty).map fun x =>
      ⟨x.tid, (unstarted s x).headD 0, s.clk.f1⟩) (List.range 16)

/-- At most one operation starts in an F1 cycle (R223). -/
def startOperation (s : State) : State :=
  if s.qe.started = s.clk.f1 + 1 then s
  else match nextOperation s with
  | some o => { s with qe := { s.qe with ops := s.qe.ops ++ [o], started := s.clk.f1 + 1 } }
  | none => s

/-- An operation's decision, fixed 32 F1 cycles after its start (R223). -/
def decideOp (s : State) (o : EnqOp) : State :=
  match xferOf s o.tid with
  | some x => enqueue s x o.leg
  | none => s

/-- The decisions that are due, in start order (R224). -/
def decideDue (s : State) : State :=
  (s.qe.ops.filter fun o => passed s o.at_ 32).foldl decideOp
    { s with qe := { s.qe with ops := s.qe.ops.filter fun o => !passed s o.at_ 32 } }

/-- What admission does in one F1 cycle: the decisions that are due, and one start (R223). -/
def admissionCycle (s : State) : State := startOperation (decideDue s)

/-- The engine is clocked: the core's clocks run (Table 1-3). -/
def coreRuns (s : State) : Bool := s.clk.started && s.mode.busUp

/-! ### FSP rings (R221, R222) -/

/-- A signal that the fabric drives toward an FSP: 0 READY, 3 HALT. -/
def fspIn (s : State) (k sig : Nat) : Bool := x5Level s (1152 + 4 * k + sig)

/-- Entries of an FSP's ring. -/
def fspEntries (s : State) (k : Nat) : Nat := 16 * 2 ^ fld (fspR s k) 15 13

/-- The read of the next ring entry starts (R222). -/
def fspEntry (s : State) (k : Nat) : State :=
  let f := fspOf s k
  let a := (fld (fspR s k) 10 0 + f.head % fspEntries s k) * 16
  let (r, s) := runStart s 6 (fspPart s k) (0x40000000 + bankKey (fld (fspB s k) 10 0) a) 16 true none
  setFsp s k fun f => { f with reader := some r }

/-- A ring entry has been read, or its read has failed: it is submitted, or ends with cause SOURCE (R222). -/
def entryRead (s : State) (k st : Nat) (bs : List Byte) : State :=
  let idx := (fspOf s k).head % fspEntries s k
  let s := setFsp s k fun f => { f with head := f.head + 1, unread := f.unread - 1, reader := none }
  let w := fun i => leVal ((bs.drop (2 * i)).take 2)
  let sub : Submission :=
    { src := .fsp k idx, part := fspPart s k, qid := w 0 + w 1 % 16 * 65536, legs := BitVec.ofNat 16 (w 2), len := w 3
      limit := w 5, addr := w 4, data := [] }
  let end_ := fun (s : State) (st : Nat) => setFsp s k fun f =>
    { f with cpl := f.cpl ++ [BitVec.ofNat 16 (st % 16 * 4096 + 10 * 256 + idx % 256)] }
  if st ≠ stOk then end_ s st
  else if w 1 ≥ 16 ∨ w 6 ≠ 0 ∨ w 7 ≠ 0 then end_ s stInvalid
  else submit s sub

/-- The entry read of an FSP goes on after a completion of port B. -/
def entryEdge (s : State) (k : Nat) : State :=
  match (fspOf s k).reader with
  | none => s
  | some r =>
    match runDone s r with
    | none => s
    | some (d, s) =>
      match runStep s 6 (fspPart s k) r d with
      | (.more r, s) => setFsp s k fun f => { f with reader := some r }
      | (.ok bs, s) => entryRead s k stOk bs
      | (.failed st, s) => entryRead s k st []

/-- The source read of a transfer goes on after a completion of port B: a read refused with BUSY is repeated (R222). -/
def sourceEdge (s : State) (tid : Nat) : State :=
  match xferOf s tid with
  | none => s
  | some x =>
    match x.reader with
    | none => s
    | some r =>
      match runDone s r with
      | none => s
      | some (d, s) =>
        match runStep s 6 x.sub.part r d with
        | (.more r, s) => setXfer s { x with reader := some r }
        | (.ok bs, s) => dataIn s x bs
        | (.failed st, s) =>
          if st = stBusy then
            let (r, s) := runNext s 6 x.sub.part r
            setXfer s { x with reader := some r }
          else sourceFailed s x st

/-- The queue engine's bank reads at an F1 edge. -/
def qeEdge (s : State) : State :=
  (s.qe.xfers.map (·.tid)).foldl sourceEdge ((s.qe.fsp.map (·.1)).foldl entryEdge s)

/-! ### Spilled cells (R216) -/

/-- The oldest spilled cell of a partition whose data have been written. -/
def spilledCell (s : State) (p : Nat) : Option Xfer :=
  s.qe.xfers.find? fun x => x.sub.part == p && !x.spill.isEmpty && x.data.isSome

/-- It is read from DRAM, with what each block's access finds, and returns into the shaped quota; a read that fails ends
the transfer (R216, R321). -/
def spillReturn (s : State) (x : Xfer) (sense : List DramSense) : State :=
  match x.spill with
  | [] => s
  | (_, o) :: rest =>
    match dramRefusal s x.sub.part o (.read 256) with
    | some st => endUnpromised s x st 0
    | none =>
      match dramAccess s o 6 (.read 256) sense with
      | (0, _, s) => setXfer s { x with spill := rest }
      | (st, _, s) => endUnpromised s x st 0

/-! ### The commands -/

/-- SUBMISSION: one arrives while the buses run (R217). -/
def execSubmission (sub : Submission) (s : State) : Result := .next (if s.mode.busUp then submit s sub else s)

/-- ADMISSION: what admission does in this F1 cycle (R223 to R228). A cycle in which no command has done so does it at its
end. -/
def execAdmission (s : State) : Result := .next (if coreRuns s then admissionCycle s else s)

/-- SPILL_RETURN: a spilled cell returns when a place of the shaped quota is free (R216). -/
def execSpillReturn (p : Nat) (s : State) (sense : List DramSense := []) : Result :=
  .next (if coreRuns s ∧ shapedHeld s p < squota s p then
      match spilledCell s p with
      | some x => spillReturn s x sense
      | none => s
    else s)

/-- DBCNT: the fabric announces up to three entries, the number that X5 delivers on signals 1 and 2 in this F1 cycle
(R97, R219); ignored while EN is 0 (R222). An announcement that no command has carried out is counted at the edge. -/
def execDbcnt (k n : Nat) (s : State) : Result := .next (if n = dbcntIn s k then fspAnnounce s k else s)

/-- FSP_ENTRY_READ: the read of an announced entry starts while HALT is 0 and the partition's user clocks run (R222, Table
19-4). -/
def execFspEntryRead (k : Nat) (s : State) : Result :=
  .next (if k < 256 ∧ fspEn s k ∧ (fspOf s k).unread > 0 ∧ (fspOf s k).reader.isNone ∧ !fspIn s k 3 ∧ userRuns s (fspPart s k)
    then fspEntry s k else s)

/-- FSP_COMPLETION_WORD: a completion word goes out in a cycle in which no cell is being handed over, while the
partition's user clocks run (R221, R24, Table 19-4). -/
def execFspCompletionWord (k : Nat) (s : State) : Result :=
  .next (match (fspOf s k).cpl with
    | w :: rest =>
      if !(fspOf s k).speaking && userRuns s (fspPart s k) then
        setFsp s k fun f => { f with cpl := rest, sig := BitVec.ofNat 20 (0x90000 + w.toNat) }
      else s
    | [] => s)

end Sys2Proof.Machine
end

