-- ==== Sys2Proof/Machine/Delivery.lean ====
section
/-! DEFINITION. Delivery, broken promises, drains, epochs and migration (R176 to R180, R218, R220, R230 to R237, R252,
R253, R287). -/

namespace Sys2Proof.Machine

/-! ### Transfers that go (R244, R252) -/

/-- A ring pair that is draining and has nothing left to write becomes DISABLED (R244). -/
def ringIdle (s : State) (g : Nat) : State :=
  let r := ringOf s g
  if r.state = .draining ∧ r.reserved = 0 then setRing s g { r with state := .disabled } else s

/-- A receive buffer that a leg took and did not fill: the ring pair holds it again, or lets its reservation go. -/
def returnBuf (s : State) (l : Leg) : State :=
  match l.rxbuf, egressOf l.egress with
  | some b, some (.host g) =>
    let r := ringOf s g
    if r.state = .running then setRing s g { r with rx := b :: r.rx }
    else ringIdle (setRing s g { r with reserved := r.reserved - 1 }) g
  | _, _ => s

/-- A transfer with nothing left and its FINAL issued goes. -/
def dropIfDone (s : State) (tid : Nat) : State :=
  match xferOf s tid with
  | some x => if x.finalled && !x.legs.any Leg.live then dropXfer (x.legs.foldl returnBuf s) tid else s
  | none => s

/-! ### Epochs (R176 to R180) -/

/-- A draining epoch ends: MIGDONE, and later admissions use the actual time (R180, R237). -/
def epochEnds (s : State) (q p : Nat) : State :=
  raiseEv (setQueue s q fun x => { x with old := none, epochStart := 0 }) (1568 + p)

/-- Some cell of a queue's epoch is still held. -/
def epochHeld (s : State) (q e : Nat) : Bool :=
  s.qe.xfers.any fun x => x.legs.any fun l => l.qid == q && l.epoch == e && l.live

/-- A draining epoch that holds no cell ends (R179). -/
def drainIfEmpty (s : State) (q : Nat) : State :=
  match (queueOf s q).old with
  | some o => if !o.pending && !epochHeld s q o.epoch then epochEnds s q (qidPart s q) else s
  | none => s

/-- A transfer with no cell left holds no place in the spill window. -/
def Xfer.unspill (x : Xfer) : Xfer := if x.legs.any Leg.live || !x.undecided.isEmpty then x else { x with spill := [] }

/-- s with something noted in every leg: cells held stay held. -/
def noteLegs (s : State) (f : Xfer → Leg → Leg) : State :=
  { s with qe := { s.qe with xfers := s.qe.xfers.map fun x => { x with legs := x.legs.map (f x) } } }

/-- s with every leg changed. -/
def mapLegs (s : State) (f : Xfer → Leg → Leg) : State :=
  { s with qe := { s.qe with xfers := s.qe.xfers.map fun x => Xfer.unspill { x with legs := x.legs.map (f x) } } }

/-- The undelivered cells of the draining epoch are discarded and counted DRAINED, and the new epoch is released
(R179). -/
def drainNow (s : State) (q : Nat) : State :=
  match (queueOf s q).old with
  | some o =>
    if o.pending then s
    else
      let p := qidPart s q
      let hit := fun (l : Leg) => l.qid == q && l.epoch == o.epoch && l.live
      let n := total (s.qe.xfers.map fun x => total ((x.legs.filter hit).map (·.left)))
      let s := mapLegs s fun _ l =>
        if hit l then { l with left := 0, booked := []
                               ending := if l.ending = .running then .drained else l.ending } else l
      let s := countQueue s q fun c => { c with drained := sat 16 (c.drained + n) }
      let s := if n > 0 then raiseEv s (1536 + p) else s
      epochEnds (s.qe.xfers.foldl (fun s x => dropIfDone s x.tid) s) q p
  | none => s

/-- The swap takes place: the pending epoch becomes current, and the old one's deadline is the swap edge (R176 to
R178). -/
def epochChange (s : State) (q : Nat) : State :=
  match (queueOf s q).old with
  | some o =>
    if o.pending then
      drainNow (setQueue s q fun x =>
        { x with epoch := o.epoch, old := some ⟨false, x.epoch, o.egress, s.clk.systime⟩, epochStart := o.deadline + 14 }) q
    else s
  | none => s

/-- The swap does not take place: pending cells are relabelled (R177). -/
def epochCancel (s : State) (q : Nat) : State :=
  match (queueOf s q).old with
  | some o =>
    if o.pending then
      let e := (queueOf s q).epoch
      let s := noteLegs s fun _ l => if l.qid == q && l.epoch == o.epoch then { l with epoch := e } else l
      setQueue s q fun x => { x with old := none }
    else s
  | none => s

/-- QE_MIGRATE: the first outcome that applies (R235). -/
def migrateStatus (s : State) (p q e : Nat) : Nat :=
  if !ownsQid s p q || (egressValid e && !egressOwned s p e) then stDenied
  else if !egressValid e || e == qEgress (qcfg s q) || qClass (qcfg s q) == 0 then stInvalid
  else if (queueOf s q).old.isSome then stBusy
  else stOk

/-- The accepted migration opens a draining epoch (R176, R178). -/
def migrateApply (s : State) (q e a : Nat) : State :=
  let x := queueOf s q
  let t0 := sysNow s
  let latest := s.qe.xfers.foldl (fun m y => y.legs.foldl (fun m l =>
    if l.qid = q ∧ l.epoch = x.epoch ∧ l.cls = 1 ∧ l.live then max m l.promise else m) m) 0
  let d := max latest (t0 + a * 1000)
  let s := setQueue s q fun x =>
    { x with cfg := BitVec.ofNat 96 (setFld x.cfg.toNat 12 0 e), epoch := (x.epoch + 1) % 256
             old := some ⟨false, x.epoch, qEgress x.cfg.toNat, d⟩, epochStart := d }
  drainIfEmpty s q

/-- QE_MIGRATE is decided: state, and its status (R235). -/
def migrate (s : State) (p q e a : Nat) : Nat × State :=
  let st := migrateStatus s p q e
  (st, if st = stOk then migrateApply s q e a else s)

/-! ### What keeps a booked cell from its position (R233, R253) -/

/-- A function reaches its host: L0, D0, Bus Master Enable (R253). -/
def hostReached (s : State) (fn : Nat) : Bool :=
  let f := tget {} s.host.fns fn
  functionUp s fn && !f.d3hot && f.bme

/-- The facts that hold against a booked position for the egress alone, at the slot edge that starts it (R253, R280,
R296). -/
def egressFacts (s : State) (l : Leg) : List LateCause :=
  match egressOf l.egress with
  | some (.host g) =>
    (if !hostReached s (ringPart g) || (ringOf s g).state != .running then [.partnerAbsent] else [])
      ++ (if l.rxbuf.isNone && (ringOf s g).rx.isEmpty then [.hostStall] else [])
  | some (.link k) =>
    (if linkState s k = .retrain then [.medium]
      else if linkState s k ≠ .up then [.partnerAbsent] else [])
  | some (.seg k) => if segRole s k = 3 ∧ segState s k ≠ .active then [.partnerAbsent] else []
  | _ => []

/-- The facts that keep an FSP from taking a cell at a position (Table 10-8). -/
def fspFacts (s : State) (k : Nat) : List LateCause :=
  (if s.mode = .m7 ∨ gated s then [.power] else [])
    ++ (if s.mode = .m6 ∨ frozen s (fspPart s k) then [.capture] else [])

/-- The facts about a transfer's source data at the slot edge that starts a position (R222, R233, R253). -/
def sourceFacts (x : Xfer) : List LateCause :=
  match x.data, x.srcFail with
  | some _, _ => []
  | none, some st => if st = stUe then [.ue] else [.hostStall]
  | none, none => [.hostStall]

/-- Cells of a partition booked on host paths in a slot by decisions before one (R254). -/
def hostBefore (s : State) (p t seq : Nat) : Nat :=
  total (s.qe.xfers.map fun x => total (x.legs.map fun l =>
    if x.sub.part = p ∧ 456 ≤ l.egress ∧ l.cls = 1 ∧ l.ending = .running then
      (l.booked.filter fun b => b.slot == t && decide (b.seq < seq)).length else 0))

/-- Why a position that has passed was not taken: the egress is gone, the host withheld posted-write credit (R253), a
stranger is on the segment (R277). -/
def passedFacts (s : State) (l : Leg) : List LateCause :=
  match egressOf l.egress with
  | some (.host _) => if (egressFacts s l).contains .partnerAbsent then [.partnerAbsent] else [.hostStall]
  | some (.link _) => if (egressFacts s l).isEmpty then [.medium] else egressFacts s l
  | some (.seg k) => if strangerNow s k then [.stranger] else []
  | _ => []

/-- The bookings of a leg at the slot edge of a slot, and the facts recorded there: against those of the slot, and
against those that passed unused. `n` counts the leg's bookings in the slot so far. -/
def checkBookings (s : State) (t : Nat) (x : Xfer) (l : Leg) : Nat → List Booking → List Booking × List LateCause
  | _, [] => ([], [])
  | n, b :: bs =>
    let here := b.slot == t
    let excess := decide (456 ≤ l.egress) && decide (hostBefore s x.sub.part t b.seq + n ≥ hostShare s x.sub.part)
    let f := if b.missed then []
      else if here then sourceFacts x ++ egressFacts s l ++ (if excess then [.partnerAbsent] else [])
      else if b.finish ≤ t ∧ 192 ≤ l.egress then passedFacts s l else []
    let gone := b.missed || !f.isEmpty || (decide (b.finish ≤ t) && decide (192 ≤ l.egress))
    let r := checkBookings s t x l (if here then n + 1 else n) bs
    ({ b with missed := gone } :: r.1, f ++ r.2)

/-- A leg at a slot edge. -/
def checkLeg (s : State) (t : Nat) (x : Xfer) (l : Leg) : Leg :=
  if l.cls = 1 ∧ l.ending = .running then
    let r := checkBookings s t x l 0 l.booked
    { l with booked := r.1, facts := l.facts ++ r.2 }
  else l

/-- The source of a bank transfer has ended: a promised cell of it starts now and its data are not there (R222). -/
def sourceLate (t : Nat) (x : Xfer) : Xfer :=
  match x.sub.src with
  | .fsp _ _ =>
    if x.data.isNone && x.srcFail.isNone && x.legs.any fun l => l.cls == 1 && l.ending == .running && l.booked.any (·.slot == t)
    then { x with srcFail := some stBusy } else x
  | _ => x

/-- Facts recorded at a slot edge (R222, R233, R253, R254). -/
def slotFacts (s : State) (t : Nat) : List Xfer :=
  s.qe.xfers.map fun x => sourceLate t { x with legs := x.legs.map (checkLeg s t x) }

/-! ### Which cell an egress takes next (R231) -/

/-- Cells delivered in the running slot: kind 0 promised, 1 in own entries, 2 in spare capacity. -/
def usedCells (s : State) (e kind p : Nat) : Nat := tget 0 s.qe.used (e * 64 + kind * 16 + p)

/-- The sum of used cells over partitions, and over all host paths for a host path. -/
def usedSpare (s : State) (e : Nat) : Nat :=
  total ((s.qe.used.filter fun u => u.1 % 64 / 16 == 2
    && (if 456 ≤ e then decide (456 ≤ u.1 / 64) else u.1 / 64 == e)).map (·.2))

/-- Capacity of an egress in cells per slot (Table 9-4, Table 11-7). -/
def egressCap (s : State) (e : Nat) : Nat :=
  match egressOf e with
  | some (.link _) => 44
  | some (.fsp _) => 4
  | some (.host _) => s.host.hcap
  | _ => 0

/-- QUEUE and WINDOW entries of a partition that act now on an egress (R198, R201). -/
def actingEntries (s : State) (p e : Nat) : List Nat :=
  if runActive s && egressActs s e then
    (entriesAt s p s.clk.systime).filter fun x =>
      (aKind x == 1 || aKind x == 2) && aEgress x == e
        && actsAt s s.clk.systime x
  else []

/-- Two egresses share one capacity: all host paths do (Table 9-4). -/
def sameCap (e f : Nat) : Bool := if 456 ≤ e then decide (456 ≤ f) else f == e

/-- Cells that a partition's entries hold on an egress in the running slot. -/
def grantedCells (s : State) (e p : Nat) : Nat :=
  if runActive s && egressActs s e then
    total (((entriesAt s p s.clk.systime).filter fun x => (aKind x == 1 || aKind x == 2)
      && sameCap e (aEgress x) && actsAt s s.clk.systime x).map aCap)
  else 0

/-- Cells of a kind that a partition has had delivered in the running slot. -/
def usedBy (s : State) (e kind p : Nat) : Nat :=
  total ((s.qe.used.filter fun u => u.1 % 64 == kind * 16 + p && sameCap e (u.1 / 64)).map (·.2))

/-- Capacity that entries hold on an egress in the running slot over all partitions, promised cells of entries that act no
longer among it (R227, R231). -/
def heldByEntries (s : State) (e : Nat) : Nat :=
  total ((List.range 16).map fun p =>
    max (grantedCells s e p)
      (bookedIn s s.clk.systime (fun p' l => p' == p && sameCap e l.egress) + usedBy s e 0 p + usedBy s e 1 p))

/-- The epoch of a leg may be delivered now (R177, R179). -/
def epochOpen (s : State) (l : Leg) : Bool :=
  let x := queueOf s l.qid
  match x.old with
  | some o => if o.pending then l.epoch == x.epoch else l.epoch == o.epoch
  | none => l.epoch == x.epoch

/-- The transfer and leg of numbers. -/
def legOf (s : State) (tid leg : Nat) : Option (Xfer × Leg) :=
  match xferOf s tid with
  | some x => (x.legs.find? (·.idx == leg)).map fun l => (x, l)
  | none => none

/-- Position j of an FSP in the running slot holds a booked cell (R220). -/
def fspHolds (s : State) (k j : Nat) : Bool :=
  match (fspOf s k).plan[j]? with
  | some (_, tid, leg) =>
    (match legOf s tid leg with
      | some (_, l) => l.booked.any (·.slot == s.clk.systime)
      | none => false)
  | none => false

/-- A shaped or best-effort cell may start on an FSP at the coming edge: at a free position or in cycles that no position
uses, where none of its 129 cycles meets a booked position of this slot or of the next (R220). -/
def fspFree (s : State) (k : Nat) : Bool :=
  let turn := s.clk.k + 1 == s.clk.slotLen
  let c := if turn then 0 else s.clk.k + 1
  let next := bookedIn s (s.clk.systime + 1000) fun _ l => l.egress == 200 + k
  let taken := fun j => if turn then decide (j < next) else fspHolds s k j
  (decide (519 ≤ c) || c % 130 == 129 || (List.range 4).any fun j => c == 130 * j && !taken j)
    && (List.range 4).all (fun j => !taken j || decide (c + 129 ≤ 130 * j) || decide (130 * j + 129 ≤ c))
    && (decide (c + 129 ≤ s.clk.slotLen) || next == 0)

/-- The egress of a leg can take a cell now; an FSP takes promised ones at its positions alone (R220). -/
def egressReady (s : State) (l : Leg) (promised : Bool) : Bool :=
  match egressOf l.egress with
  | some (.seg k) => segState s k != .off
  | some (.link k) => linkState s k == .up
  | some (.fsp k) =>
    !promised && userRuns s (fspPart s k) && (fspOf s k).outq.isEmpty && fspIn s k 0 && fspFree s k
  | some (.host g) =>
    hostReached s (ringPart g) && (if l.rxbuf.isSome then (ringOf s g).state != .disabled
      else (ringOf s g).state == .running && !(ringOf s g).rx.isEmpty)
  | _ => false

/-- A leg's class at delivery: a leg reported LATE goes as best-effort (R233). -/
def Leg.deliverAs (l : Leg) : Nat :=
  match l.ending with
  | .running => l.cls
  | _ => 3

/-- The number of a leg's next cell. -/
def nextIndex (x : Xfer) (l : Leg) : Nat := cellsOf x.sub.len - l.left

/-- A leg's oldest booked position is in the running slot, and nothing has kept its cell from it. -/
def inPosition (s : State) (l : Leg) : Bool :=
  match l.booked with
  | b :: _ => b.slot == s.clk.systime && !b.missed
  | [] => false

/-- Promised cells of the running slot, delivered or not (R229). -/
def promisedNow (s : State) : Nat :=
  bookedIn s s.clk.systime (fun _ l => l.cls == 1) + total ((s.qe.used.filter fun u => u.1 % 64 / 16 == 0).map (·.2))

/-- The cell buffer can yield one more shaped or best-effort cell: one in an F1 cycle, and none of the slot's cycles that
the promised cells need (R229). -/
def readFree (s : State) : Bool :=
  decide (s.qe.readAt ≠ s.clk.f1 + 1) && decide (s.qe.reads + promisedNow s < s.clk.slotLen)

/-- A leg has a cell that may leave now on its egress. -/
def cellReady (s : State) (x : Xfer) (l : Leg) : Bool :=
  l.live && !x.spill.any (·.1 == nextIndex x l) && x.data.isSome && epochOpen s l
    && (match l.deliverAs with
      | 1 => inPosition s l
      | 2 => decide ((queueOf s l.qid).tokens ≥ 1000)
      | _ => true)

/-- The legs with a cell ready for an egress and class. -/
def readyLegs (s : State) (e cls : Nat) : List (Xfer × Leg) :=
  s.qe.xfers.flatMap fun x =>
    (x.legs.filter fun l => l.egress == e && l.deliverAs == cls && cellReady s x l && egressReady s l (cls == 1)).map
      fun l => (x, l)

/-- The leg to serve among some of one partition and class: queues round-robin, each in order (R231). -/
def turnOf (s : State) (e p cls : Nat) (c : List (Xfer × Leg)) : Option (Xfer × Leg) :=
  let last := tget 0 s.qe.rrq (e * 64 + 2 * p + (if cls = 2 then 0 else 1))
  let after := c.filter fun r => decide (last < r.2.qid + 1)
  let pool := if after.isEmpty then c else after
  let q := pool.foldl (fun m r => min m r.2.qid) 0x100000
  pool.find? fun r => r.2.qid == q

/-- The leg to serve among the ready ones of one partition and class. -/
def roundRobin (s : State) (e p cls : Nat) : Option (Xfer × Leg) :=
  turnOf s e p cls ((readyLegs s e cls).filter fun r => r.1.sub.part == p)

/-- Shaped, then best-effort, of one partition. -/
def shapedFirst (s : State) (e p : Nat) (shapedToo : Bool) : Option (Xfer × Leg) :=
  match if shapedToo then roundRobin s e p 2 else none with
  | some r => some r
  | none => roundRobin s e p 3

/-- Booking order: slot by slot, then by the decision that booked (R231). -/
def bookedBefore (l m : Leg) : Bool :=
  match l.booked, m.booked with
  | a :: _, b :: _ => decide (a.slot < b.slot) || (a.slot == b.slot && decide (a.seq < b.seq))
  | _, _ => false

/-- The promised cell that an egress takes next (R231). -/
def nextPromised (s : State) (e : Nat) : Option (Xfer × Leg) :=
  match readyLegs s e 1 with
  | r :: rs => some (rs.foldl (fun b x => if bookedBefore x.2 b.2 then x else b) r)
  | [] => none

/-- The cell that the owner of an entry takes next in its unbooked positions and its windows (R231). -/
def nextOwn (s : State) (e p : Nat) : Option (Xfer × Leg) :=
  let es := actingEntries s p e
  let g := total (es.map aCap)
  let g1 := total ((es.filter fun x => aKind x == 2 && aClass x == 1).map aCap)
  let booked := bookedIn s s.clk.systime (fun p' l => p' == p && l.egress == e) + usedCells s e 0 p
  let u := usedCells s e 1 p + booked
  if u < g then shapedFirst s e p (decide (u < g - g1)) else none

/-- The cell that takes capacity which no entry holds: partitions round-robin (R231). -/
def nextSpare (s : State) (e : Nat) : Option (Xfer × Leg) :=
  if egressCap s e > heldByEntries s e + usedSpare s e then
    firstSome (fun i => shapedFirst s e ((tget 0 s.qe.rr e + i) % 16) true) (List.range 16)
  else none

/-- The cell that an egress takes next, and in which capacity: kind of `used` (R229, R231). -/
def nextCell (s : State) (e : Nat) : Option (Xfer × Leg × Nat) :=
  match nextPromised s e with
  | some r => some (r.1, r.2, 0)
  | none =>
    if !readFree s then none
    else match firstSome (nextOwn s e) (List.range 16) with
    | some r => some (r.1, r.2, 1)
    | none => (nextSpare s e).map fun r => (r.1, r.2, 2)

/-! ### Handing a cell over (R220, R252, R287) -/

/-- Posted memory writes of at most Max_Payload_Size bytes, in address order (R252). -/
def hostPut : Nat → Nat → State → Nat → List Byte → State
  | 0, _, s, _, _ => s
  | n + 1, mps, s, a, bs =>
    if bs.length ≤ mps then emit s (.hostWrite a bs)
    else hostPut n mps (emit s (.hostWrite a (bs.take mps))) (a + mps) (bs.drop mps)

/-- The words of a cell handed over on an FSP (R220). -/
def fspWords (tag : Nat) (prom : Bool) (bs : List Byte) : List (BitVec 20) :=
  let p := if prom then 0x40000 else 0
  BitVec.ofNat 20 (0x30000 + p + tag % 65536) :: (wordsOf (padCell bs)).map fun w => BitVec.ofNat 20 (0x10000 + p + w.toNat)

/-- The MAP entry of a cell (Table 13-5). -/
def mapEntry (x : Xfer) (l : Leg) (i n : Nat) (prom : Bool) (bs : List Byte) : BitVec 56 :=
  let hop := match x.sub.src with | .link _ h => h | _ => 0
  let last := i + 1 == n
  BitVec.ofNat 56 (2 ^ 55 + place (i == 0) 54 + place last 53 + place prom 52 + hop % 32 * 2 ^ 47
    + l.qid % 2 ^ 20 * 2 ^ 27 + (if last then (bs.length - 1) % 256 * 2 ^ 19 else 0) + (crc16 (padCell bs)).toNat)

/-- s with a leg of a transfer replaced. -/
def setLeg (s : State) (tid : Nat) (l : Leg) : State :=
  mapLegs s fun x y => if x.tid == tid && y.idx == l.idx then l else y

/-- A link or host path takes one cell of a leg: what leaves the part, and the leg's receive buffer. -/
def handOver (s : State) (x : Xfer) (l : Leg) (prom : Bool) : State × Option RxBuf :=
  let n := cellsOf x.sub.len
  let i := nextIndex x l
  let bs := cellBytes x i
  match egressOf l.egress with
  | some (.link k) =>
    let s := emit s (.linkCell k (mapEntry x l i n prom bs) (padCell bs))
    (countLink (setLink s k fun y => { y with txSeq := y.txSeq + 1 }) k 7, none)
  | some (.host g) =>
    let r := ringOf s g
    match l.rxbuf, r.rx with
    | some b, _ => (put s g b i bs, some b)
    | none, b :: rest => (put (setRing s g { r with rx := rest }) g b i bs, some b)
    | none, [] => (s, none)
  | _ => (s, none)
where
  put (s : State) (g : Nat) (b : RxBuf) (i : Nat) (bs : List Byte) : State :=
    let s := hostPut 2 (tget {} s.host.fns (ringPart g)).mps s (b.addr + 256 * i) bs
    if i + 1 = cellsOf x.sub.len then
      let v := l.qid % 2 ^ 20 + sysNow s % 2 ^ 32 * 2 ^ 32
      queueCpl s ⟨g, kRx, stOk, 0, b.tag, v, x.sub.len, 1, [], [], none⟩
    else s

/-- The capacity that a cell takes, and for a shaped one its token (R213, R229, R231). -/
def takeCapacity (s : State) (e : Nat) (x : Xfer) (l : Leg) (kind : Nat) : State :=
  let p := x.sub.part
  let s := if l.deliverAs = 2 then setQueue s l.qid fun q => { q with tokens := q.tokens - 1000 } else s
  { s with qe := { s.qe with
    used := tmod 0 s.qe.used (e * 64 + kind * 16 + p) (· + 1)
    reads := if kind = 0 then s.qe.reads else s.qe.reads + 1
    readAt := if kind = 0 then s.qe.readAt else s.clk.f1 + 1
    rr := if kind = 2 then tset 0 s.qe.rr e ((p + 1) % 16) else s.qe.rr
    rrq := if kind = 0 then s.qe.rrq
           else tset 0 s.qe.rrq (e * 64 + 2 * p + (if l.deliverAs = 2 then 0 else 1)) (l.qid + 1) } }

/-- A cell of a leg has been delivered (R230). -/
def delivered (s : State) (x : Xfer) (l : Leg) (kind : Nat) (buf : Option RxBuf) : State :=
  let late := l.ending != .running
  let l' := { l with
    left := l.left - 1, booked := if kind = 0 then l.booked.drop 1 else l.booked, rxbuf := if l.left = 1 then none else buf
    ending := if l.left = 1 ∧ l.ending = .running then .delivered else l.ending }
  let s := setLeg s x.tid l'
  let s := countQueue s l.qid fun c =>
    if late then { c with lateCells := sat 16 (c.lateCells + 1) } else { c with delivered := sat 32 (c.delivered + 1) }
  dropIfDone (drainIfEmpty s l.qid) x.tid

/-- The place in the cell buffer at which a cell of a transfer stands. -/
def cellPlace (s : State) (x : Xfer) (i : Nat) : Nat :=
  total ((s.qe.xfers.takeWhile fun y => y.tid != x.tid).map fun y => y.bufferCells.length)
    + (x.bufferCells.takeWhile (· != i)).length

/-- The engine reads a cell as uncorrectable: logged, and the transfer ends (R315, Table 14-4). -/
def cellLost (s : State) (x : Xfer) (i : Nat) : State :=
  let s := logCell s x.sub.part (256 * cellPlace s x i) 6 true 0
  let x := (xferOf s x.tid).getD x
  let end_ := fun (l : Leg) =>
    if !l.live then l
    else match l.ending with
    | .running =>
      if l.cls = 1 then { l with facts := l.facts ++ [.ue], booked := l.booked.map fun b => { b with missed := true } }
      else { l with left := 0, ending := .failed stUe 0 }
    | e => { l with left := 0, ending := e }
  let s := setXfer s (Xfer.unspill { x with srcFail := some stUe, legs := x.legs.map end_ })
  dropIfDone (x.legs.foldl (fun s l => drainIfEmpty s l.qid) s) x.tid

/-- A cell starts over an FSP: its words follow, one at each F1 edge (R220). -/
def fspStart (s : State) (k : Nat) (x : Xfer) (l : Leg) (kind : Nat) : State :=
  setFsp s k fun f => { f with
    outq := fspWords l.tag.toNat (kind == 0) (cellBytes x (nextIndex x l)), cell := some (x.tid, l.idx, kind) }

/-- One cell of a leg is read from the cell buffer and leaves on its egress (R230, R231). -/
def deliver (s : State) (e : Nat) (x : Xfer) (l : Leg) (kind : Nat) : State :=
  if x.bad.contains (nextIndex x l) then cellLost s x (nextIndex x l)
  else
    let s := takeCapacity s e x l kind
    match egressOf e with
    | some (.fsp k) => fspStart s k x l kind
    | _ =>
      let (s, b) := handOver s x l (kind == 0)
      delivered s x l kind b

/-! ### Fabric stream ports, cycle by cycle (R220, R230) -/

/-- An entry in booking order. -/
def planInsert (e : Nat × Nat × Nat) : List (Nat × Nat × Nat) → List (Nat × Nat × Nat)
  | [] => [e]
  | x :: xs => if e.1 < x.1 then e :: x :: xs else x :: planInsert e xs

/-- The bookings of a leg in a slot enter the plan of its FSP. -/
def planLeg (t : Nat) (x : Xfer) (s : State) (l : Leg) : State :=
  if 200 ≤ l.egress ∧ l.egress < 456 ∧ l.cls = 1 ∧ l.ending = .running then
    (l.booked.filter (·.slot == t)).foldl
      (fun s b => setFsp s (l.egress - 200) fun f => { f with plan := planInsert (b.seq, x.tid, l.idx) f.plan }) s
  else s

/-- Which cells take which positions of the slot that begins (R220). -/
def fspPlans (s : State) : State :=
  let clear := fun (e : Nat × Fsp) => (e.1, { e.2 with plan := [] })
  let s := { s with qe := { s.qe with fsp := s.qe.fsp.map clear } }
  s.qe.xfers.foldl (fun s x => x.legs.foldl (planLeg s.clk.systime x) s) s

/-- The cell booked for a position has missed it, with the facts that hold now. -/
def missPosition (s : State) (k : Nat) (x : Xfer) (l : Leg) : State :=
  setLeg s x.tid { l with
    facts := l.facts ++ fspFacts s k
    booked := match l.booked with
      | b :: bs => { b with missed := true } :: bs
      | [] => [] }

/-- The first word of a cell appears in the cycle that begins. -/
def fspSpeak (s : State) (k : Nat) : State := setFsp s k fun f => { f with sig := f.outq.headD f.sig, outq := f.outq.drop 1 }

/-- Position j of an FSP begins: its promised cell starts whatever READY holds, or misses it (R220, Table 10-8). -/
def fspPosition (j : Nat) (s : State) (k : Nat) : State :=
  match (fspOf s k).plan[j]? with
  | none => s
  | some (_, tid, leg) =>
    match legOf s tid leg with
    | none => s
    | some (x, l) =>
      if l.cls ≠ 1 ∨ l.ending ≠ .running ∨ !cellReady s x l then s
      else if userRuns s (fspPart s k) then fspSpeak (deliver s (200 + k) x l 0) k
      else missPosition s k x l

/-- The positions that begin in this F1 cycle. -/
def fspPositions (s : State) : State :=
  if s.clk.k % 130 = 0 ∧ s.clk.k < 520 then (s.qe.fsp.map (·.1)).foldl (fspPosition (s.clk.k / 130)) s else s

/-- The last word of a cell is on an FSP's signals: the cell is delivered (R230). -/
def fspDone (s : State) (k : Nat) : State :=
  match (fspOf s k).cell with
  | some (tid, leg, kind) =>
    if !(fspOf s k).outq.isEmpty then s
    else
      let s := setFsp s k fun f => { f with cell := none }
      match legOf s tid leg with
      | some (x, l) =>
        if l.live then
          let s := emit s (.fspCell k l.tag (kind == 0) (padCell (cellBytes x (nextIndex x l))))
          delivered s x l kind none
        else s
      | none => s
  | none => s

/-- A cell being handed over where the FSP's user clocks have stopped is cut off: it is not delivered, and a promised one
has missed its position (Table 19-4; DESIGN CHOICE, log 109). -/
def fspCut (s : State) (k : Nat) : State :=
  if userRuns s (fspPart s k) then s
  else match (fspOf s k).cell with
  | none => s
  | some (tid, leg, kind) =>
    let s := setFsp s k fun f => { f with cell := none, outq := [], sig := 0 }
    match legOf s tid leg with
    | some (x, l) => if kind = 0 then missPosition s k x l else s
    | none => s

/-- What an F1 edge does on the FSPs, before and after their signals move on. -/
def fspBefore (s : State) : State := (s.qe.fsp.map (·.1)).foldl fspCut s
def fspAfter (s : State) : State := fspPositions ((s.qe.fsp.map (·.1)).foldl fspDone s)

/-! ### LATE and FINAL (R218, R233, R234) -/

/-- The highest of some causes (Table 10-8). -/
def topCause : List LateCause → Option LateCause
  | [] => none
  | c :: cs => match topCause cs with
    | some d => some (if d.rank < c.rank then d else c)
    | none => some c

/-- The facts against a leg when its promise falls due: those recorded, and those of positions that have just passed. -/
def lateFacts (s : State) (l : Leg) : List LateCause :=
  l.facts ++ (if l.egress < 192 || l.booked.any fun b => !b.missed then passedFacts s l else [])

/-- The one cause with which a leg is reported LATE: the highest fact recorded, else the egress's own last row. -/
def lateCause (s : State) (l : Leg) : LateCause :=
  (topCause (lateFacts s l)).getD (if l.egress < 200 then .medium else .hostStall)

/-- A leg reported LATE keeps its cells for a late delivery: LATEACT as it stood at the decision, data that can still come,
and none of them uncorrectable (R215, R222, R233, R321). -/
def keepsLate (x : Xfer) (l : Leg) : Bool := l.lateact && x.srcFail.isNone

/-- A promised leg is reported LATE with a cause (R233, R236, R237). -/
def reportLate (s : State) (x : Xfer) (l : Leg) (c : LateCause) : State :=
  let s := setLeg s x.tid { l with
    ending := .late c, booked := [], left := if keepsLate x l then l.left else 0 }
  let s := countQueue s l.qid fun k => { k with late := sat 16 (k.late + 1) }
  let p := x.sub.part
  let s := { s with qe := { s.qe with lateCnt := tmod 0 s.qe.lateCnt (8 * p + c.code) fun n => sat 16 (n + 1) } }
  drainIfEmpty (raiseEv s (1520 + p)) l.qid

/-- Status and cause of a leg that has ended. -/
def legOutcome : LegEnd → Nat × Nat
  | .running | .delivered | .discarded => (stOk, 0)
  | .late c => (stLate, c.code)
  | .drained => (stDrained, 0)
  | .failed st c => (st, c)

/-- Every leg of a transfer has ended. -/
def xferEnded (x : Xfer) : Bool := x.decided && x.legs.all fun l => l.ending != .running

/-- FINAL (R218, R234). -/
def finalize (s : State) (x : Xfer) : State :=
  let fails := x.legs.filter fun l => l.ending != .delivered
  let first := (fails.head?.map fun l => legOutcome l.ending).getD (stOk, 0)
  let (st, c) := if fails.isEmpty then (stOk, 0)
    else if x.sub.legs = 0 then first else (stPartial, first.2)
  let aux := if x.sub.legs = 0 then 0 else legMap ((x.legs.filter (·.ending == .delivered)).map (·.idx))
  let rel := if x.legs.any (·.cls == 1) then 1 else 2
  let s := if x.legs.any (·.ending == .discarded) then s else fspCpl (xferCpl s x kFinal st c 0 aux rel) x st c
  dropIfDone (setXfer s { x with finalled := true }) x.tid

/-! ### The commands -/

/-- CELL_DELIVERY: one cell on an egress that carries cells, within the running slot; segment ports take frames in their
opportunities, FSPs their promised cells at their positions. -/
def execCellDelivery (e : Nat) (s : State) : Result :=
  .next (match if e < 192 ∨ s.clk.slotLen ≤ s.clk.k ∨ s.clk.boundaryDue then none else nextCell s e with
    | some (x, l, kind) => deliver s e x l kind
    | none => s)

/-- FINAL. -/
def execFinal (tid : Nat) (s : State) : Result :=
  .next (match xferOf s tid with
    | some x => if xferEnded x && !x.finalled then finalize s x else s
    | none => s)

/-- LATE: PROMISE_TIME has come and the leg is not delivered (R233). -/
def execLate (tid leg : Nat) (s : State) : Result :=
  .next (match xferOf s tid with
    | some x =>
      match x.legs.find? (·.idx == leg) with
      | some l =>
        if l.cls = 1 ∧ l.ending = .running ∧ l.live ∧ l.promise ≤ sysNow s then reportLate s x l (lateCause s l) else s
      | none => s
    | none => s)

/-- The promised cells of the slot that ends which no command has put on their link go out (R229, R231). -/
def linkRest : Nat → Nat → State → State
  | 0, _, s => s
  | n + 1, e, s =>
    match nextPromised s e with
    | some (x, l) => linkRest n e (deliver s e x l 0)
    | none => s

/-- The same, on every link. -/
def linksRest (s : State) : State := (List.range 8).foldl (fun s k => linkRest 44 (192 + k) s) s

/-- DRAIN_DEADLINE (R179). -/
def execDrainDeadline (q : Nat) (s : State) : Result :=
  .next (match (queueOf s q).old with
    | some o => if !o.pending && decide (o.deadline ≤ sysNow s) then drainNow s q else s
    | none => s)

end Sys2Proof.Machine
end

