-- ==== Sys2Proof/Machine/Swap.lean ====
section
/-! DEFINITION. Commit groups, swap requests, the swap edge, and the configuration scrub (R167 to R184). -/

namespace Sys2Proof.Machine

/-! ### Groups (R168) -/

/-- Swap causes of Table 8-3. -/
abbrev swEmpty : Nat := 1
abbrev swLoading : Nat := 2
abbrev swBusy : Nat := 3
abbrev swTooLate : Nat := 4
abbrev swBridge : Nat := 5
abbrev swPromise : Nat := 6
abbrev swDraining : Nat := 7
abbrev swFrozen : Nat := 8
abbrev swCancelled : Nat := 9
abbrev swJournal : Nat := 10

/-- Banks held by type-1 frames of a group (R166). -/
def groupBanks (s : State) (p cg : Nat) : List Nat := (s.bank.typed.filter (·.2 == 4 * p + cg)).map (·.1)

/-- CFG_CGSTAT of a group. -/
def cgStat (s : State) (p cg : Nat) : Nat :=
  let g := groupOf s p cg
  let n := (groupRegions s p cg).length
  (if g.sched.isSome then 2 else if n = 0 then 0 else 1) * 0x4000 + g.cause % 16 * 0x400 + n

/-- A load that names a group is running or waiting (Table 8-3). -/
def groupLoading (s : State) (p cg : Nat) : Bool :=
  s.ldr.waiting.any (fun l => l.part == p && l.cg == cg) || (match s.ldr.running with
    | some l => !l.device && l.part == p && l.cg == cg
    | none => false)

/-- A promised cell of a queue with a PROMISE_TIME later than a boundary. -/
def promiseAfter (s : State) (q b : Nat) : Bool :=
  s.qe.xfers.any fun x => x.legs.any fun l =>
    l.qid == q && l.cls == 1 && l.ending == .running && l.live && decide (b < l.promise)

/-! ### Swap requests (R169 to R172) -/

/-- A swap request's fields (Table 8-2). -/
structure SwapAsk where
  cmd : Nat
  cg : Nat
  keep : Bool
  next : Bool
  frame : Nat
  ring : Option (Nat × Word)
  view : Option View
  deriving DecidableEq, Repr

/-- A swap request ends: cause in CFG_CGSTAT, DONE entry (Table 8-3, Table 11-4). -/
def swapEnds (s : State) (p cg status cause : Nat) (r : Option (Nat × Word)) (frame : Nat) : State :=
  descDone (setGroup s p cg fun g => { g with cause := cause, inJournal := false }) r status cause frame

/-- The cause that refuses a SWAP, in the order of Table 8-3, and the boundary (R170, R171). -/
def swapCheck (s : State) (p : Nat) (a : SwapAsk) : Nat ⊕ Nat :=
  let rs := groupRegions s p a.cg
  let qs := affectedQueues s p a.cg
  let others := (List.range 4).any fun g => (groupOf s p g).sched.isSome || (groupOf s p g).inJournal
  if rs.isEmpty then .inl swEmpty
  else if groupLoading s p a.cg then .inl swLoading
  else if others || frozen s p then .inl swBusy
  else match targetBoundary s a.next a.frame with
  | none => .inl swTooLate
  | some b =>
    let after := planeAfter s rs
    match checkPlane s after rs (configured after) [] s.fab.pers with
    | some _ => .inl swBridge
    | none =>
      if qs.any (promiseAfter s · b) then .inl swPromise
      else if qs.any fun q => (queueOf s q).old.isSome then .inl swDraining
      else .inr b

/-- The frame of a swap request (Table 11-4): with NEXT = 1 the FRAME field is ignored (Table 8-2, R171). -/
def askedFrame (s : State) (a : SwapAsk) : Nat :=
  if a.next then (targetBoundary s true a.frame).getD 0 / (flen s * 1000) % 2 ^ 32 else a.frame

/-- BRG_REJ after a swap request refused with BRIDGE, in the view that asked. -/
def swapRej (s : State) (p : Nat) (a : SwapAsk) (cause : Nat) : State :=
  if cause ≠ swBridge then s
  else
    let rs := groupRegions s p a.cg
    let after := planeAfter s rs
    match checkPlane s after rs (configured after) [] s.fab.pers with
    | some x => brgRej s (match a.view with | some v => viewCode v | none => p) x
    | none => s

/-- A SWAP request is checked and, if it passes, presents its record (R170). -/
def swapRequest (s : State) (p : Nat) (a : SwapAsk) : State :=
  match swapCheck s p a with
  | .inl c => raiseEv (swapEnds (swapRej s p a c) p a.cg stRefused c a.ring (askedFrame s a)) 1753
  | .inr b =>
    let f := askedFrame s a
    journal (setGroup s p a.cg fun g => { g with inJournal := true })
      (engRec 2 p a.cg 0x06 stOk f a.cg a.keep.toNat) true 2
      (.swap p a.cg a.keep f b a.ring a.view)

/-- The SWAP record's fate: SCHEDULED with pending epochs, or JOURNAL (R170, R177). -/
def swapCommitted (s : State) (p cg : Nat) (keep : Bool) (frame b : Nat) (r : Option (Nat × Word)) (ok : Bool) : State :=
  if !ok then raiseEv (swapEnds s p cg stRefused swJournal r frame) 1753
  else
    let qs := affectedQueues s p cg
    let s := setGroup s p cg fun g => { g with sched := some ⟨keep, frame, b, r, false⟩, inJournal := false }
    qs.foldl (fun s q => openPending s b q) s

/-- A scheduled swap ends with its SWAP_END record, event and completion (Table 19-3). -/
def swapOver (s : State) (p cg : Nat) (q : SwapReq) (status cause : Nat) : State :=
  let s := setGroup s p cg fun g => { g with sched := none }
  let s := journal s (engRec 2 p cg 0x07 status q.frame cg cause) false 1 .done
  raiseEv (swapEnds s p cg status cause q.ring q.frame) (if cause = 0 then 1752 else 1753)

/-- CANCEL may be accepted: SCHEDULED, and the boundary more than 1 µs away (R172). -/
def swapCancellable (s : State) (p cg : Nat) : Bool :=
  match (groupOf s p cg).sched with
  | some q => !q.released && decide (sysNow s + 1000 < q.boundary)
  | none => false

/-- CANCEL takes effect (R172, R177). -/
def swapCancelNow (s : State) (p cg : Nat) : State :=
  match (groupOf s p cg).sched with
  | some q => swapOver ((affectedQueues s p cg).foldl epochCancel s) p cg q stAborted swCancelled
  | none => s

/-- CLEAR's refusal: BUSY on a SCHEDULED group; on an EMPTY one REFUSED, for which the manual gives no status (R172). -/
def clearRefusal (s : State) (p cg : Nat) : Option Nat :=
  if (groupOf s p cg).sched.isSome || (groupOf s p cg).inJournal then some stBusy
  else if (groupRegions s p cg).isEmpty then some stRefused
  else none

/-- CLEAR of an OPEN group (R172): shadows back to the active contents, banks of its loads poison-filled. -/
def clearGroup (s : State) (p cg : Nat) : State :=
  let rs := groupRegions s p cg
  let bs := groupBanks s p cg
  let s := { s with fab := { s.fab with shadow := rs.foldl (fun d r => copyRegion s.fab.active d r) s.fab.shadow } }
  untype (bs.foldl poisonBank (setShadow s .idle rs)) bs

/-- CFG_SWPCMD's refusal at the register (R170 to R172). -/
def swpcmdCheck (s : State) (p val : Nat) : Option Nat :=
  let cg := val % 4
  match fld val 15 14 with
  | 0 => some stInvalid
  | 1 => none
  | 2 => if swapCancellable s p cg then none else some stRefused
  | _ => clearRefusal s p cg

/-- The fields of a CFG_SWPCMD write, with CFG_SWPFRM as FRAME. -/
def swpcmdAsk (s : State) (v : View) (val : Nat) : SwapAsk :=
  { cmd := fld val 15 14, cg := val % 4, keep := bit val 12, next := bit val 13
    frame := (vw s v 0x10104 0).toNat * 65536 + (vw s v 0x10108 0).toNat, ring := none, view := some v }

/-- A request of a SWAP descriptor, whatever its CMD (R169, R171, R172). -/
def swapDesc (s : State) (p : Nat) (a : SwapAsk) : State :=
  match a.cmd with
  | 1 => swapRequest s p a
  | 2 =>
    if swapCancellable s p a.cg then descDone (swapCancelNow s p a.cg) a.ring stOk 0 0
    else descDone s a.ring stRefused 0 0
  | 3 =>
    match clearRefusal s p a.cg with
    | some st => descDone s a.ring st 0 0
    | none => descDone (clearGroup s p a.cg) a.ring stOk 0 0
  | _ => descDone s a.ring stInvalid 0 0

/-! ### The swap edge (R173 to R175, Table 8-4) -/

/-- One region swaps: the active plane takes the shadow's contents, and its state is set as Table 8-4 states. The
captures of the old configuration at the edge have been made by USER_CLOCK_EDGE. -/
def swapRegion (s : State) (keep : Bool) (r : Nat) : State :=
  let wasBlank := blank s.fab.active r
  let s := { s with fab := { s.fab with
    active := copyRegion s.fab.shadow s.fab.active r
    shadowState := tset .idle s.fab.shadowState r .idle
    fromSlot := tset 0 s.fab.fromSlot r 0
    unrep := tkeep (fun k => !inRegion r k) s.fab.unrep } }
  if blank s.fab.active r then
    let out := fun k => !(k / 1216 == r)
    { s with fab := { s.fab with
        ff := tkeep (fun k => k / 8192 != r) s.fab.ff, x3 := tkeep out s.fab.x3
        bridge := tkeep (fun k => k % 3072 / 8 != r) s.fab.bridge
        mac := tkeep (fun k => k / 16 != r) s.fab.mac
        site := tkeep (fun k => k / 4 != r) s.fab.site
        x5in := tkeep (fun k => k / 64 != r) s.fab.x5in
        x5out := tkeep (fun k => k / 64 != r) s.fab.x5out } }
  else if keep && !wasBlank then s
  else initRegion s r true

/-- A group swaps at the F1 edge that has just passed: every region on the same edge (R173). -/
def swapNow (s : State) (p cg : Nat) (q : SwapReq) : State :=
  let rs := groupRegions s p cg
  let qs := affectedQueues s p cg
  let bs := groupBanks s p cg
  let s := qs.foldl (openIfNone q.boundary) s
  let s := noteMoves s s.clk.f1 (lanesSettle (rs.foldl (fun s r => swapRegion s q.keep r) s))
  let s := untype s bs
  swapOver (qs.foldl epochChange s) p cg q stOk 0

/-- A swap that does not take place (R173): its pending cells go on, and the group returns to OPEN. -/
def swapFrozen (s : State) (p cg : Nat) (q : SwapReq) : State :=
  swapOver ((affectedQueues s p cg).foldl epochCancel s) p cg q stAborted swFrozen

/-- Swaps whose boundary passes while the ET9 is in M8 end FROZEN at the wake, at a SYSTIME (R173, Table 17-3). -/
def swapsMissed (s : State) (t : Nat) : State :=
  s.swp.groups.foldl (fun s g => match g.2.sched with
    | some q => if q.boundary < t then swapFrozen s (g.1 / 4) (g.1 % 4) q else s
    | none => s) s

/-- The swap edge of a group (R173). -/
def swapEdge (s : State) (p cg : Nat) : State :=
  match (groupOf s p cg).sched with
  | none => s
  | some q =>
    if !swapEdgeDue s q then s
    else if userRuns s p && s.pwr.entry.isNone then swapNow s p cg q
    else swapFrozen s p cg q

/-- Step 3 of a frame boundary releases the swaps due to their swap edge (R174, R196). -/
def swapStep (s : State) : State :=
  { s with swp := { s.swp with groups := s.swp.groups.map fun e =>
      (e.1, { e.2 with sched := e.2.sched.map fun q =>
        if q.boundary ≤ s.clk.systime then { q with released := true } else q }) } }

/-! ### Configuration scrub (R181 to R183) -/

/-- The frames that a scrubbed region has, in address order: types 0, 2, 3 and 4 (R181). -/
def scrubKeys (r : Nat) : List Nat := wholeRegion r

/-- The next region at or after one that is not blank. -/
def scrubRegion (s : State) (r : Nat) : Option Nat :=
  let rs := configured s.fab.active
  match rs.find? (r ≤ ·) with
  | some x => some x
  | none => rs.head?

/-- The words of a frame as the CRC covers them: 256 words, an unlisted frame being zeros. -/
def frameWords (p : Plane) (k : Nat) : List Word :=
  let ws := tget [] p.frames k
  ws ++ List.replicate (256 - ws.length) 0

/-- A frame matches the CRC kept for it (R148, R181). -/
def frameGood (p : Plane) (k : Nat) : Bool := crc16 (bytesOf (frameWords p k)) == tget 0 p.crcs k

/-- The frame of an image slot at a byte offset, if it is readable. -/
def slotWords (s : State) (n : Nat) : Nat → Nat → Option (List Word)
  | _, 0 => some []
  | a, m + 1 =>
    if flBad s (slotBase n + a) then none
    else (slotWords s n (a + 2) m).map (flWord s (slotBase n + a) :: ·)

/-- The clear words of a stored frame: it is found by walking the packets of the slot's image (R146, R182). -/
def slotFrame (s : State) (n k : Nat) : Option (List Word × Word) :=
  match slotWords s n 0 32 with
  | none => none
  | some h =>
    let l := withHeader { newLoad 0 0 0 (.slot n) [] 0 with device := true } h
    walk l l.len 32 0
where
  walk (l : Load) : Nat → Nat → Nat → Option (List Word × Word)
    | 0, _, _ => none
    | fuel + 1, pos, addr =>
      match imgReads s l pos 1 with
      | some (some w) =>
        match packetOf (nthD 0 (clearWords s l pos w) 0).toNat with
        | some (.frame, _) =>
          if addr % 0x80000000 = k then
            match imgReads s l (pos + 1) 257 with
            | some (some ws) =>
              let c := clearWords s l (pos + 1) ws
              some (c.take 256, nthD 0 c 256)
            | _ => none
          else walk l fuel (pos + 258) (nextAddress addr)
        | some (.fadr, _) =>
          match imgReads s l (pos + 1) 2 with
          | some (some ws) =>
            let c := clearWords s l (pos + 1) ws
            walk l fuel (pos + 3) ((nthD 0 c 0).toNat * 65536 + (nthD 0 c 1).toNat)
          | _ => none
        | some (.endPkt, _) => none
        | some (_, m) => walk l fuel (pos + m) addr
        | none => none
      | _ => none

/-- s with a frame of a plane rewritten. -/
def putFrame (p : Plane) (k : Nat) (ws : List Word) : Plane := { p with frames := tset [] p.frames k ws }

/-- CFG_SCRSTAT of every view of a partition: bits set, and REGION with UNREP (R182, R183). -/
def scrStat (s : State) (r bits : Nat) : State :=
  let p := regionPart s r
  let views := (if p = 0 then [0, 0x14, 0x15] else [p]) ++ ((List.range 4).filter (fun h => hartPart s h == p)).map (0x10 + ·)
  views.foldl (fun s c =>
    let old := (tget 0 s.vregs (viewKey c 0x10124)).toNat
    let new := Nat.lor old bits
    let new := if bits ≥ 0x8000 then setFld new 8 0 r else new
    { s with vregs := tset 0 s.vregs (viewKey c 0x10124) (BitVec.ofNat 16 new) }) s

/-- Words with some of their bits, numbered from bit 0 of the first, inverted. -/
def flipBits (ws : List Word) (bits : List Nat) : List Word :=
  ws.zipIdx.map fun w => bits.foldl (fun x b => if b / 16 = w.2 then x ^^^ BitVec.ofNat 16 (2 ^ (b % 16)) else x) w.1

/-- An active frame is rewritten whole from a good source (R182, R183). -/
def frameRepaired (s : State) (k : Nat) (ws : List Word) : State :=
  raiseEv (scrStat { s with
    fab := { s.fab with active := putFrame s.fab.active k ws, unrep := tdel s.fab.unrep k }
    swp := { s.swp with repairs := s.swp.repairs + 1 } } (fkRegion k) 0x4000) 1754

/-- The bad cells of an active frame are noted (R182). -/
def noteBad (s : State) (k : Nat) (bad : List Nat) : State :=
  { s with fab := { s.fab with unrep := tset [] s.fab.unrep k bad } }

/-- Repair of an active frame from the image slot that loaded its region, or the frame is unrepairable (R182). -/
def repairFromSlot (s : State) (k : Nat) (bad : List Nat) : State :=
  let slot := tget 0 s.fab.fromSlot (fkRegion k)
  match if slot = 0 then none else slotFrame s slot k with
  | some (ws, c) =>
    if crc16 (bytesOf ws) = c ∧ c = tget 0 s.fab.active.crcs k then frameRepaired s k ws else unrepairable
  | none => unrepairable
where
  unrepairable : State := raiseEv (scrStat (noteBad s k bad) (fkRegion k) 0x8000) 1755

/-- What the scrub does with one frame, in which it finds active and shadow cells upset (R181 to R183). A repair from a
slot waits while the flash is erased or programmed (Table 14-5). -/
def scrubFrame (s : State) (k : Nat) (upset shadowUpset : List Nat) : State :=
  let r := fkRegion k
  let idle := shadowOf s r == .idle
  let s := if idle && !shadowUpset.isEmpty then
      { s with fab := { s.fab with shadow := putFrame s.fab.shadow k (flipBits (frameWords s.fab.shadow k) shadowUpset) } }
    else s
  let bad := upset.foldl (fun l b => sins b l) (tget [] s.fab.unrep k)
  if crc16 (bytesOf (flipBits (frameWords s.fab.active k) bad)) = tget 0 s.fab.active.crcs k then
    if idle && frameWords s.fab.shadow k != frameWords s.fab.active k then
      let sh := putFrame s.fab.shadow k (tget [] s.fab.active.frames k)
      let sh := { sh with crcs := tset 0 sh.crcs k (tget 0 s.fab.active.crcs k) }
      raiseEv (scrStat { s with fab := { s.fab with shadow := sh }
                                swp := { s.swp with repairs := s.swp.repairs + 1 } } r 0x2000) 1754
    else s
  else
    let bad := if bad.isEmpty then upto 0 4096 else bad
    if idle && frameGood s.fab.shadow k then frameRepaired s k (tget [] s.fab.shadow.frames k)
    else if tget 0 s.fab.fromSlot r ≠ 0 ∧ flashRuns s then deferTask (noteBad s k bad) (.frameRepair k)
    else repairFromSlot s k bad

/-- A frame repair that waited for the flash (R322); a swap that replaced the frame meanwhile leaves nothing to do. -/
def repairDeferred (s : State) (k : Nat) : State :=
  let bad := tget [] s.fab.unrep k
  if bad.isEmpty then s else repairFromSlot s k bad

/-- F1 edges from now to the swap edge of a boundary, counting later slots as 600 edges (R173). -/
def edgesToSwap (s : State) (b : Nat) : Nat :=
  let n := s.clk.slotLen - s.clk.k + 600 * ((b - s.clk.systime) / 1000 - 1)
  cdiv (s.clk.f1 + n) 8 * 8 - s.clk.f1

/-- A scheduled swap is within 600 F1 cycles of its edge (R183, Table 14-5). -/
def SwapReq.near (s : State) (q : SwapReq) : Bool :=
  q.released || decide (q.boundary ≤ s.clk.systime) || decide (edgesToSwap s q.boundary ≤ 600)

/-- A swap of a region's group comes within 600 F1 cycles (R183). -/
def swapNear (s : State) (r : Nat) : Bool :=
  (List.range 4).any fun cg =>
    match (groupOf s (regionPart s r) cg).sched with
    | some q => shadowOf s r == .staged cg && q.near s
    | none => false

/-- CFG_SCRCTL.PERIOD in F1 cycles: 0 acts as 1 µs (R181). -/
def scrubPeriod (s : State) : Nat := 600 * max 1 ((dev s 0x10120 0x800C).toNat % 4096)

/-- One read of the configuration scrub: the next active frame in region and address order (R181). The order's place
is region·256 + index. -/
def configScrub (s : State) (upset shadowUpset : List Nat) : State :=
  let pos := s.swp.scrubPos
  match scrubRegion s (pos / 256) with
  | none => s
  | some r =>
    let ks := scrubKeys r
    let i := if r = pos / 256 then pos % 256 else 0
    let i := if i < ks.length then i else 0
    if swapNear s r || frozen s (regionPart s r) then s
    else
      let next := if i + 1 < ks.length then r * 256 + i + 1 else (r + 1) % 384 * 256
      scrubFrame { s with swp := { s.swp with scrubPos := next, scrubAt := s.clk.f1 } } (nthD 0 ks i) upset shadowUpset

/-! ### The commands -/

/-- SWAP_EDGE. -/
def execSwapEdge (p cg : Nat) (s : State) : Result := .next (swapEdge s p cg)

/-- CONFIG_SCRUB_READ: it runs while CFG_SCRCTL.EN is 1 and the core is clocked, once every PERIOD (R181). -/
def execConfigScrubRead (s : State) (upset : List Nat := []) (shadowUpset : List Nat := []) : Result :=
  .next (if bit (dev s 0x10120 0x800C).toNat 15 && s.clk.started && s.mode.busUp && passed s s.swp.scrubAt (scrubPeriod s)
    then configScrub s upset shadowUpset else s)

end Sys2Proof.Machine
end

