-- ==== Sys2Proof/Machine/Dram.lean ====
section
/-! DEFINITION. DRAM requests, window fills, refresh, the memory scrubbers, retirement (R204, R205, R303 to R320). -/

namespace Sys2Proof.Machine

/-- Requests of one partition that a channel may hold (R311). -/
abbrev chanLimit : Nat := 64

/-- A channel takes a request of a partition, or leaves it outside the controller (R311). -/
def chanArrive (c : Chan) (r : DReq) : Chan :=
  if (c.reqs.filter (·.part == r.part)).length < chanLimit && !c.outside.any (·.part == r.part) then
    { c with reqs := c.reqs ++ [r] }
  else { c with outside := c.outside ++ [r] }

/-- A request arrives at its channel: refused at once, or queued (R303, R311). A request that spans two windows is two
requests. The numbers of the requests are returned. -/
def dramRequest (s : State) (m p o : Nat) (acc : Acc) : List Nat × State :=
  let n := accSize acc
  let room := 0x40000000 - o % 0x40000000
  let id := s.dram.nextId
  match acc with
  | .read _ =>
    if n ≤ room then ([id], one s o acc)
    else ([id, id + 1], one (one s o (.read room)) (o + room) (.read (n - room)))
  | .write bs =>
    if n ≤ room then ([id], one s o acc)
    else ([id, id + 1], one (one s o (.write (bs.take room))) (o + room) (.write (bs.drop room)))
  | .amo _ _ => ([id], one s o acc)
where
  one (s : State) (o : Nat) (acc : Acc) : State :=
    let id := s.dram.nextId
    let s := { s with dram := { s.dram with nextId := id + 1 } }
    match dramRefusal s p o acc with
    | some st => { s with dram := { s.dram with done := s.dram.done ++ [⟨id, st, []⟩] } }
    | none =>
      let mc := dramWindow o / 128
      setChan s mc (chanArrive (chanOf s mc) ⟨id, m, p, o, acc⟩)

/-- P0's entries of a kind for a channel act in the running slot (R201, R204, R205). -/
def chanSlot (s : State) (kind mc : Nat) : Bool :=
  runActive s && (activeEntries s 0).any fun e => aKind e.2 == kind && aEgress e.2 == 4552 + mc && actsAt s s.clk.systime e.2

/-- The running slot belongs to a channel's maintenance (R205). -/
def maintSlot (s : State) (mc : Nat) : Bool := chanSlot s 4 mc

/-- The running slot is covered by a REFRESH entry of the channel (R204). -/
def refreshSlot (s : State) (mc : Nat) : Bool := chanSlot s 3 mc

/-- DRAM maintenance may use a channel in the running slot: its MAINT slots, and slots that no reservation of the channel
holds (R205). -/
def maintMay (s : State) (mc : Nat) : Bool := maintSlot s mc || !refreshSlot s mc

/-- The partition that a channel serves next: round-robin over those with a request (R311). -/
def nextPart (c : Chan) : Option Nat :=
  firstSome (fun i =>
    let p := (c.lastPart + 1 + i) % 16
    if c.reqs.any (·.part == p) then some p else none) (List.range 16)

/-- A place of a partition at a channel has become free: its oldest request outside arrives (R311). -/
def chanAdmit (c : Chan) (p : Nat) : Chan :=
  match pick (·.part == p) c.outside with
  | some (r, rest) => { c with reqs := c.reqs ++ [r], outside := rest }
  | none => c

/-- The oldest request of the partition in turn completes (R311, R312); a MAINT slot is the maintenance's (R205). -/
def dramComplete (s : State) (mc p : Nat) (sense : List DramSense) : State :=
  let c := chanOf s mc
  if nextPart c ≠ some p ∨ c.selfRefresh ∨ maintSlot s mc then s
  else
    match pick (·.part == p) c.reqs with
    | none => s
    | some (r, rest) =>
      let s := setChan s mc (chanAdmit { c with reqs := rest, lastPart := p } p)
      let (st, bs, s) := match dramRefusal s p r.addr r.acc with
        | some st => (st, [], s)
        | none => dramAccess s r.addr r.master r.acc sense
      { s with dram := { s.dram with done := s.dram.done ++ [⟨r.id, st, bs⟩] } }

/-! ### Windows (R304) -/

/-- MEM_WIN as read. -/
def memWinWord (s : State) (w : Nat) : Nat :=
  (dev s (0x80000 + 4 * w) 0).toNat + place (s.dram.filling.contains w) 15

/-- Why a MEM_WIN write is refused (R304): reserved bits INVALID; a filling window or a spill window BUSY. -/
def memWinCheck (s : State) (w val : Nat) : Option Nat :=
  let spills := (List.range 16).any fun p => bit (spillReg s p) 15 && spillReg s p % 256 == w
  if fld val 13 4 ≠ 0 then some stInvalid
  else if s.dram.filling.contains w || (val % 16 != windowPart s w && spills) then some stBusy
  else none

/-- A MEM_WIN write takes effect: a change of a present window starts its fill (R304). -/
def memWinApply (s : State) (w : Nat) (val : Word) : State :=
  let old := (dev s (0x80000 + 4 * w) 0).toNat
  let new := Nat.land val.toNat 0x400F
  let s' := setDev s (0x80000 + 4 * w) 0 (BitVec.ofNat 16 new)
  if new ≠ old ∧ windowPresent s w then { s' with dram := { s'.dram with filling := sins w s'.dram.filling } } else s'

/-- A window fill ends: every block of it is poison, but for retired pages (R304, R320). It is maintenance (R205). -/
def fillDone (s : State) (w : Nat) : State :=
  if !s.dram.filling.contains w || !maintMay s (w / 128) then s
  else
    let keep := fun b => dramWindow (64 * b) != w || pageRetired s (64 * b)
    raiseEv { s with dram := { s.dram with
      filling := sdel w s.dram.filling, blk := tkeep keep s.dram.blk, poisonWin := sins w s.dram.poisonWin } } 1661

/-! ### Refresh (R204) -/

/-- P0's active page holds REFRESH entries for a channel, and RUN is 1. -/
def scheduledRefresh (s : State) (mc : Nat) : Bool :=
  runActive s && (activeEntries s 0).any fun e => aKind e.2 == 3 && aEgress e.2 == 4552 + mc

/-- Refreshes of a channel in a covered slot: two where its devices require the doubled rate (R204). -/
def refreshQuota (mc : Nat) : Nat := if Config.doubledRefresh mc then 2 else 1

/-- The channel refreshes every rank: once or twice in a covered slot, or at its own interval (R204). -/
def refresh (s : State) (mc : Nat) : State :=
  let c := chanOf s mc
  let slot := s.clk.systime / 1000
  let n := if c.lastRefresh = some slot then c.refreshes else 0
  let due := !scheduledRefresh s mc || (refreshSlot s mc && decide (n < refreshQuota mc))
  if c.ready && !c.selfRefresh && due && s.mode.timeRuns then
    emit (setChan s mc { c with lastRefresh := some slot, refreshes := n + 1 }) (.refresh mc)
  else s

/-! ### Scrubbers (R313, R314) -/

/-- MEM_SCRCTL.EN of a scrubber. -/
def scrubOn (s : State) (k : Nat) : Bool := bit (dev s (0x80410 + 4 * k) 0x8000).toNat 15

/-- PASS of a scrubber, in seconds. -/
def scrubPass (s : State) (k : Nat) : Nat :=
  (dev s (0x80430 + 8 * k) 0).toNat * 65536 + (dev s (0x80434 + 8 * k) 0x0E10).toNat

/-- Units of a scrubber's target (Table 14-2). -/
def scrubUnits (k : Nat) : Nat :=
  match k with | 0 => 12582912 | 1 => 3145728 | 2 => 2097152 | _ => 2147483648

/-- A scrubber. -/
def scrubberOf (s : State) (k : Nat) : Scrubber := tget {} s.dram.scr k

/-- s with a scrubber changed. -/
def setScrubber (s : State) (k : Nat) (f : Scrubber → Scrubber) : State :=
  { s with dram := { s.dram with scr := tmod {} s.dram.scr k f } }

/-- The worse of two check results. -/
def Chk.worst (c d : Chk) : Chk := if c = .ue ∨ d = .ue then .ue else if c = .cor ∨ d = .cor then .cor else .good

/-- What an access finds, as the check of a byte or word. -/
def senseChk : DramSense → Chk
  | .clean => .good
  | .oneDevice _ _ _ _ => .cor
  | .worse _ _ => .ue

/-- A bank row is read: what its four bytes hold, and what the read finds in each besides (R115, R313). Corrected bytes
are rewritten, but for those that port A writes in this array cycle (R116). -/
def scrubRow (s : State) (pos : Nat) (sense : List DramSense) : State :=
  let b := 4 * pos / bankSize
  let cyc := cycleOf s b
  let bs := (bankBytes s b (4 * pos) 4).zipIdx.map fun e =>
    let old := before cyc.aWrote e.1.1 e.1.2
    (e.1.1, old.1, old.2.worst (senseChk (nthD .clean sense e.2)))
  let s := setCycle (logBank s 8 bs) b { cyc with bUsed := true }
  (bs.filter fun e => !cyc.aWrote.any (·.1 == e.1)).foldl
    (fun s e => putByte s e.1 e.2.1 (if e.2.2 = .ue then .ue else .good)) s

/-- A queue-table word is read: an uncorrectable one stays as it is, for the engine to find (R313, Table 14-4). -/
def scrubQueueWord (s : State) (pos : Nat) (sense : DramSense) : State :=
  let q := pos / 3
  match sense with
  | .clean => if (queueOf s q).bad then logQueue s q (pos % 3) 8 true 0 else s
  | .oneDevice _ n _ _ => logQueue s q (pos % 3) 8 false n
  | .worse _ _ => setQueue (logQueue s q (pos % 3) 8 true 0) q fun x => { x with bad := true }

/-- A cell-buffer word is read (R313, R318): it belongs to the cell that stands there, or to none. -/
def scrubCellWord (s : State) (pos : Nat) (sense : DramSense) : State :=
  let place := pos / 32
  let at_ := pos * 8
  match cellAt s place, sense with
  | none, .clean => s
  | none, .oneDevice _ n _ _ => logCell s 0 at_ 8 false n
  | none, .worse _ _ => logCell s 0 at_ 8 true 0
  | some (x, i), .clean => if x.bad.contains i then logCell s x.sub.part at_ 8 true 0 else s
  | some (x, _), .oneDevice _ n _ _ => logCell s x.sub.part at_ 8 false n
  | some (x, i), .worse _ _ => setXfer (logCell s x.sub.part at_ 8 true 0) { x with bad := sins i x.bad }

/-- A DRAM block is read; a corrected one is rewritten (R313). -/
def scrubBlock (s : State) (b : Nat) (sense : DramSense) : State := (readBlk s b 8 sense).2

/-- A scrubber's unit must be passed over, and how many units with it: retired banks, absent or filling windows,
retired pages (R313). -/
def scrubSkip (s : State) (k pos : Nat) : Option Nat :=
  if k = 0 then
    if bankRetired s (pos / 8192) then some (8192 - pos % 8192) else none
  else if k ≥ 3 then
    let o := (k - 3) * 0x2000000000 + 64 * pos
    if !windowPresent s (dramWindow o) || s.dram.filling.contains (dramWindow o) then
      some (0x1000000 - pos % 0x1000000)
    else if pageRetired s o then some (64 - pos % 64) else none
  else none

/-- A scrubber visits its next unit (R313, R314). -/
def scrubVisit (s : State) (k : Nat) (sense : List DramSense) (onTime : Bool) : State :=
  let x := scrubberOf s k
  let n := scrubUnits k
  let pos := x.pos
  let (s, d) := match scrubSkip s k pos with
    | some d => (s, d)
    | none =>
      (match k with
        | 0 => scrubRow s pos sense
        | 1 => scrubQueueWord s pos (sense.headD .clean)
        | 2 => scrubCellWord s pos (sense.headD .clean)
        | _ => scrubBlock s ((k - 3) * 0x80000000 + pos) (sense.headD .clean), 1)
  let now := s.clk.f1
  let ends := decide (pos + d ≥ n)
  let inTime := decide (now - x.passStart ≤ scrubPass s k * 600000000)
  let lag := if !onTime then true else if ends && inTime && !x.late then false else x.lag
  let s := if lag && !x.lag then raiseEv s 1659 else s
  setScrubber s k fun _ =>
    { pos := if ends then 0 else pos + d, lag := lag, passStart := if ends then now else x.passStart
      late := if ends then false else x.late || !onTime }

/-- A scrubber's visit is deferred: the unit's bank is being wiped (Table 14-5), or an earlier request to the block has
not completed (R312). A filling window is skipped (R313). -/
def scrubDeferred (s : State) (k : Nat) : Bool :=
  let pos := (scrubberOf s k).pos
  if k = 0 then bankBusy s (pos / 8192)
  else if k < 3 then false
  else
    let o := (k - 3) * 0x2000000000 + 64 * pos
    (chanOf s (k - 3)).reqs.any fun r => decide (r.addr < o + 64 ∧ o < r.addr + accSize r.acc)

/-- A scrubber's unit can be read now: an idle slot of port B (R121), or a slot of the channel that maintenance may use
(R205). -/
def scrubAccess (s : State) (k : Nat) : Bool :=
  if k = 0 then portBIdle s ((scrubberOf s 0).pos / 8192) else if k < 3 then true else maintMay s (k - 3)

/-! ### Retirement (R319, R320) -/

/-- BNK_RETIRE: INVALID for no bank, BUSY for one being handed over. -/
def bnkRetireCheck (s : State) (val : Nat) : Option Nat :=
  if val % 2048 ≥ 1536 then some stInvalid else if bankBusy s (val % 2048) then some stBusy else none

/-- A bank is retired. -/
def bnkRetireApply (s : State) (val : Nat) : State :=
  { s with bank := { s.bank with retired := sins (val % 2048) s.bank.retired } }

/-- The page that a MEM_RETIRE commit names. -/
def retirePage (val : Nat) : Nat := val % 0x4000000

/-- MEM_RETIRE: INVALID for an absent window; REFUSED when the table is full. -/
def memRetireCheck (s : State) (val : Nat) : Option Nat :=
  if !windowPresent s (retirePage val / 0x40000) then some stInvalid
  else if decide (s.dram.retiredPages.length ≥ 1024) && !s.dram.retiredPages.contains (retirePage val) then some stRefused
  else none

/-- A page is retired. -/
def memRetireApply (s : State) (val : Nat) : State :=
  if s.dram.retiredPages.contains (retirePage val) then s
  else { s with dram := { s.dram with retiredPages := s.dram.retiredPages ++ [retirePage val] } }

/-- MEM_SCRPASS: a commit outside 1 to 86,400 seconds is INVALID. -/
def scrPassCheck (val : Nat) : Option Nat := if val < 1 ∨ 86400 < val then some stInvalid else none

/-! ### The commands -/

/-- DRAM_REFRESH. -/
def execDramRefresh (mc : Nat) (s : State) : Result := .next (if mc < 2 then refresh s mc else s)

/-- DRAM_TRAINING: READY with a capacity of Table 14-1, or FAIL, once after each reset release (R301). -/
def execDramTraining (mc : Nat) (gib : Option Nat) (s : State) : Result :=
  .next (
    let c := chanOf s mc
    if mc ≥ 2 ∨ c.ready ∨ c.fail ∨ !s.clk.started then s
    else
      let c := match gib with
        | some g => if 16 ≤ g ∧ g ≤ 128 then { c with ready := true, gib := g } else { c with fail := true }
        | none => { c with fail := true }
      raiseEv (setChan s mc c) 1660)

/-- DRAM_REQUEST: an address outside DRAM reaches no channel. -/
def execDramRequest (m p addr : Nat) (acc : Acc) (s : State) : Result :=
  .next (match dramOf addr with
    | some o => (dramRequest s m p o acc).2
    | none => s)

/-- DRAM_COMPLETION. -/
def execDramCompletion (mc p : Nat) (sense : List DramSense) (s : State) : Result :=
  .next (if mc < 2 then dramComplete s mc p sense else s)

/-- FILL_DONE. -/
def execFillDone (w : Nat) (s : State) : Result := .next (fillDone s w)

/-- A scrubber waits among the deferred activities. -/
def scrubWaits (s : State) (k : Nat) : Bool := s.dram.deferred.any fun a => match a with
  | .scrub j _ => j == k
  | _ => false

/-- SCRUB_VISIT: a visit that Table 14-5 defers waits among the deferred activities; one whose access path is taken in
this cycle or slot does not take place in it (R314). -/
def execScrubVisit (k : Nat) (sense : List DramSense) (onTime : Bool) (s : State) : Result :=
  .next (
    if k ≥ 5 ∨ !scrubOn s k ∨ !s.clk.started ∨ scrubWaits s k then s
    else if scrubDeferred s k then deferTask s (.scrub k sense)
    else if scrubAccess s k then scrubVisit s k sense onTime
    else s)

end Sys2Proof.Machine
end

