-- ==== Sys2Proof/Machine/Pci.lean ====
section
/-! DEFINITION. The PCI Express side of the sixteen functions: identity, configuration space, MSI-X, the map of BAR2
(R238 to R241, R245, R251). -/

namespace Sys2Proof.Machine

/-! ### Identity (R240) -/

/-- Device ID of PF0, VF Device ID of the others. -/
def deviceId (fn : Nat) : Word := if fn = 0 then 0x9C19 else 0x9C1A

/-- Class code: base class, subclass, interface. -/
abbrev classCode : Nat := 0x118000

/-- TotalVFs and InitialVFs, First VF Offset, VF Stride of PF0's SR-IOV capability. -/
abbrev totalVFs : Nat := 15
abbrev firstVFOffset : Nat := 1
abbrev vfStride : Nat := 1

/-- Routing ID of a function, counted from PF0's. -/
def routingId (fn : Nat) : Nat := if fn = 0 then 0 else firstVFOffset + (fn - 1) * vfStride

/-- A function exists: under an ET7 personality VFs are not offered (R31). -/
def functionExists (s : State) (fn : Nat) : Bool := fn == 0 || (s.fab.pers == 0 && decide (fn ≤ s.host.numVFs))

/-- The MSI-X Table Size of a function (R241). -/
def msixSize (fn : Nat) : Nat := if fn = 0 then 2048 else 128

/-- A function. -/
def fnOf (s : State) (fn : Nat) : Fn := tget {} s.host.fns fn

/-- s with a function changed. -/
def setFn (s : State) (fn : Nat) (f : Fn → Fn) : State :=
  { s with host := { s.host with fns := tmod {} s.host.fns fn f } }

/-! ### BAR2 (Table 11-2, R245) -/

/-- A dword that the host reads from BAR2: a doorbell page reads zero, then come the MSI-X table and the PBA. -/
def bar2Dword (s : State) (fn off : Nat) : BitVec 32 :=
  let f := fnOf s fn
  if off < 0x100000 then 0
  else if off < 0x100000 + 16 * msixSize fn then
    let v := (off - 0x100000) / 16
    let e := (tget 0 f.msixTable v).toNat
    match off / 4 % 4 with
    | 0 => BitVec.ofNat 32 e
    | 1 => BitVec.ofNat 32 (e / 2 ^ 32)
    | 2 => BitVec.ofNat 32 (e / 2 ^ 64)
    | _ => if f.unmasked.contains v then 0 else 1
  else if 0x110000 ≤ off ∧ off < 0x110000 + msixSize fn / 8 then
    BitVec.ofNat 32 (((List.range 32).filter fun i => f.pba.contains (8 * (off - 0x110000) + i)).foldl (fun n i => n + 2 ^ i) 0)
  else 0

/-! ### Configuration space (R238, R240, R251, R253) -/

/-- A value of a size field that PCI Express codes in powers of two from 128 up to a limit. -/
def pcieSize (n most : Nat) : Bool := [128, 256, 512, 1024, 2048, 4096].contains n && decide (n ≤ most)

/-- Pending messages of a function that may now be sent are sent (R251). -/
def sendPending (s : State) (fn : Nat) : State :=
  (fnOf s fn).pba.foldl (fun s v => if msixOpen s fn v then
    sendMsix (setFn s fn fun f => { f with pba := sdel v f.pba }) fn v else s) s

/-- A write of a function's configuration space or MSI-X table. -/
def cfgWrite (s : State) (fn : Nat) (w : CfgWrite) : State :=
  match w with
  | .power b => setFn s fn fun f => { f with d3hot := b }
  | .busMaster b => setFn s fn fun f => { f with bme := b }
  | .numVFs n => if fn = 0 ∧ n ≤ totalVFs ∧ s.fab.pers = 0 then { s with host := { s.host with numVFs := n } } else s
  | .msixEnable b => setFn s fn fun f => { f with msixEn := b }
  | .msixFunctionMask b => setFn s fn fun f => { f with msixFm := b }
  | .msixMask v b =>
    if v ≥ msixSize fn then s
    else setFn s fn fun f => { f with unmasked := if b then sdel v f.unmasked else sins v f.unmasked }
  | .msixEntry v a d =>
    if v ≥ msixSize fn then s
    else setFn s fn fun f => { f with msixTable := tset 0 f.msixTable v (BitVec.ofNat 96 (d.toNat * 2 ^ 64 + a.toNat)) }
  | .bar0 a => setFn s fn fun f => { f with bar0 := a &&& 0xFFFFFFFFFFF00000 }
  | .bar2 a => setFn s fn fun f => { f with bar2 := a &&& 0xFFFFFFFFFFE00000 }
  | .maxPayload n => if pcieSize n 512 then setFn s fn fun f => { f with mps := n } else s
  | .maxReadRequest n => if pcieSize n 4096 then setFn s fn fun f => { f with mrrs := n } else s
  | .completionTimeout c => setFn s fn fun f => { f with timeout := c }
  | .ecrc gen check => setFn s fn fun f => { f with ecrcGen := gen, ecrcCheck := check }
  | .aerClear m => setFn s fn fun f => { f with aer := f.aer &&& ~~~m }

/-- CONFIGURATION_SPACE_WRITE: while the link is up, to a function that exists. -/
def execConfigurationSpaceWrite (fn : Nat) (w : CfgWrite) (s : State) : Result :=
  .next (if s.host.rate = 0 ∨ !functionExists s fn then s else sendPending (cfgWrite s fn w) fn)

/-- The function's AER Uncorrectable Error Status bit for a failed read, where PCI Express gives the requester one:
poisoned, and timed out (R255; PRESUMED, log 114). -/
def aerBit : ReadFail → Option Nat
  | .poisoned => some 12
  | .timedOut => some 14
  | .unsupported | .aborted => none

/-- An error is logged in a function's AER capability, with AER_LOGGED (R238, R262). -/
def aerLog (s : State) (fn : Nat) (why : ReadFail) : State :=
  match aerBit why with
  | some b => raiseEv (setFn s fn fun f => { f with aer := f.aer ||| BitVec.ofNat 32 (2 ^ b) }) 1619
  | none => s

end Sys2Proof.Machine
end

