-- ==== Sys2Proof/Machine/Rings.lean ====
section
/-! DEFINITION. Ring pairs, doorbells, descriptors, completions, the DMA engine, FLR and loss of the host (R238 to R262,
R397). -/

namespace Sys2Proof.Machine

/-! ### Ring pairs (R242 to R244, R259) -/

/-- Entries of a submission and of a completion ring. -/
def Ring.sqN (r : Ring) : Nat := 16 * 2 ^ fld r.cfg.toNat 175 172
def Ring.cqN (r : Ring) : Nat := 16 * 2 ^ fld r.cfg.toNat 171 168

/-- EN, VEC and COAL. -/
def Ring.en (r : Ring) : Bool := bit r.cfg.toNat 191
def Ring.vec (r : Ring) : Nat := fld r.cfg.toNat 186 176
def Ring.coal (r : Ring) : Nat := fld r.cfg.toNat 167 160

/-- Completion places that neither an entry nor a reservation takes (R248). -/
def Ring.room (r : Ring) : Nat := r.cqN - ((r.cqTail + 2 * r.cqN - r.cqHead) % (2 * r.cqN) + r.reserved)

/-- Descriptors announced and not yet fetched. -/
def Ring.announced (r : Ring) : Nat := (r.sqTail + 2 * r.sqN - r.sqHead) % (2 * r.sqN)

/-- The ring configuration a view has loaded, SYS_RCFG0 to SYS_RCFG11. -/
def stagedRing (s : State) (v : View) : Nat := wordsVal ((List.range 12).map fun k => vw s v (0x200 + 4 * k) 0)

/-- The configuration bits whose change is allowed while a ring pair runs: VEC, COAL (R243). -/
def ringFree (c : Nat) : Nat := setFld (setFld c 186 176 0) 167 160 0

/-- Why a SYS_RSEL commit is refused, in the order DENIED, INVALID, BUSY (R240, R243, R430). -/
def rselCheck (s : State) (v : View) (val : Nat) : Option Nat :=
  let g := val % 4096
  let fn := viewPart s v
  let c := stagedRing s v
  let r := ringOf s g
  if ringPart g ≠ fn ∨ !enabled s fn then some stDenied
  else if fld c 175 172 > 12 ∨ fld c 171 168 > 12 ∨ fld c 5 0 ≠ 0 ∨ fld c 69 64 ≠ 0 ∨ fld c 186 176 ≥ msixSize fn
      ∨ fld c 152 144 > 256 ∨ fld c 190 187 ≠ 0 ∨ fld c 159 153 ≠ 0 ∨ fld c 143 128 ≠ 0 then some stInvalid
  else if r.state ≠ .disabled ∧ ringFree c ≠ ringFree r.cfg.toNat
      ∧ !(r.en && !bit c 191 && ringFree c == ringFree (setFld r.cfg.toNat 191 191 0)) then some stBusy
  else none

/-- A ring pair no longer takes receive buffers: those held and not yet taken by a transfer go, with their
reservations (R244). -/
def dropBuffers (r : Ring) : Ring := { r with rx := [], reserved := r.reserved - r.rx.length }

/-- A SYS_RSEL commit takes effect (R244, R259). -/
def rselApply (s : State) (v : View) (val : Nat) : State :=
  let g := val % 4096
  let r := { ringOf s g with cfg := BitVec.ofNat 192 (stagedRing s v) }
  match r.state with
  | .disabled => setRing s g (if r.en then { cfg := r.cfg, state := .running } else r)
  | .draining => setRing s g r
  | .running | .error _ =>
    if r.en then setRing s g r
    else ringIdle (setRing s g { dropBuffers r with state := .draining }) g

/-- A running ring pair moves to ERROR (R246, R255, R259). -/
def ringError (s : State) (g cause : Nat) : State :=
  let r := ringOf s g
  if r.state = .running then raiseEv (setRing s g { dropBuffers r with state := .error cause }) (1584 + ringPart g)
  else s

/-! ### Doorbells (R245, R246) -/

/-- A doorbell: a 32-bit write to offset 0 of a page (R245). -/
def isDoorbell (off size : Nat) : Bool := off == 0 && size == 4

/-- A doorbell reaches its ring pair. -/
def doorbell (s : State) (page : Nat) (val : Nat) : State :=
  let r := ringOf s page
  let cq := bit val 29
  let n := if cq then r.cqN else r.sqN
  let idx := val % 65536
  let new := fld val 16 16 * n + idx
  let old := if cq then r.cqHead else r.sqTail
  let d := (new + 2 * n - old) % (2 * n)
  let most := if cq then (r.cqTail + 2 * n - old) % (2 * n) else n - (old + 2 * n - r.sqHead) % (2 * n)
  if page ≥ deadRing ∨ !functionUp s (ringPart page) ∨ fld val 31 30 ≠ 0 ∨ fld val 28 17 ≠ page ∨ r.state ≠ .running
  then s
  else if idx ≥ n ∨ d > most then ringError s page 1
  else setRing s page (if cq then { r with cqHead := new } else { r with sqTail := new })

/-! ### Descriptors (R247 to R249) -/

/-- A descriptor's fields: bytes a to b. -/
def dBytes (d : BitVec 256) (a n : Nat) : Nat := fld d.toNat (8 * (a + n) - 1) (8 * a)

/-- OPCODE and TAG. -/
def dOp (d : BitVec 256) : Nat := dBytes d 0 1
def dTag (d : BitVec 256) : Word := BitVec.ofNat 16 (dBytes d 2 2)

/-- The bit ranges that Table 11-5 assigns beside OPCODE and TAG; `none` for an opcode not listed. -/
def descFields (op : Nat) : Option (List (Nat × Nat)) :=
  match op with
  | 0x00 => some []
  | 0x01 => some [(51, 32), (95, 64), (255, 128)]
  | 0x02 => some [(79, 64), (255, 192)]
  | 0x03 => some [(9, 8), (63, 32), (255, 192)]
  | 0x04 => some [(37, 32), (95, 64)]
  | 0x05 => some [(63, 32), (255, 192)]
  | 0x06 => some [(33, 32), (37, 37), (95, 64)]
  | 0x07 => some [(51, 32), (76, 64), (95, 80)]
  | 0x08 => some [(47, 32), (255, 64)]
  | 0x09 => some [(79, 64), (255, 192)]
  | 0x0A => some [(9, 8), (63, 32), (255, 128)]
  | _ => none

/-- Reservations of a descriptor (Table 11-4). -/
def descNeed (d : BitVec 256) : Nat := if dOp d = 1 then 2 else 1

/-- The swap request or page flip of a descriptor has no CMD that the tables list. -/
def descCmd (d : BitVec 256) : Bool := (dOp d != 4 && dOp d != 6) || dBytes d 4 1 % 4 != 0

/-- A descriptor is listed, and its unassigned bits are zero (R247). -/
def descGood (d : BitVec 256) : Bool :=
  match descFields (dOp d) with
  | none => false
  | some fs => (fs.foldl (fun n f => setFld n f.1 f.2 0) (setFld (setFld d.toNat 7 0 0) 31 16 0)) == 0 && descCmd d

/-- A DONE entry for a descriptor. -/
def done (s : State) (g : Nat) (d : BitVec 256) (status cause value : Nat) : State :=
  descDone s (some (g, dTag d)) status cause value

/-- An MGMT descriptor takes a place of its partition, or ends BUSY (R329). -/
def mgmtQueue (s : State) (g : Nat) (d : BitVec 256) : State :=
  let p := ringPart g
  let q := tget [] s.mgt.places p
  if q.length ≥ 16 then done s g d stBusy 0 0
  else
    let r : MReq := { ring := g, tag := dTag d, code := dBytes d 4 2, reqLen := dBytes d 8 4, rspLen := dBytes d 12 4
                      rspAddr := dBytes d 16 8, reqAddr := dBytes d 24 8, bytes := none, failed := false, working := false, ended := false }
    { s with mgt := { s.mgt with places := tset [] s.mgt.places p (q ++ [r]) } }

/-- The next descriptors of a ring pair that no command of their own hands over end: NOP (Table 11-4). -/
def handNext (g : Nat) : Nat → State → State
  | 0, s => s
  | n + 1, s =>
    let r := ringOf s g
    match r.fetched with
    | d :: rest =>
      if descGood d && dOp d == 0 then handNext g n (done (setRing s g { r with fetched := rest }) g d stOk 0 0) else s
    | [] => s

/-- The next fetched descriptor of a ring pair is handed over, when it is the one that a command stands for (R249). -/
def handOverIf (s : State) (g : Nat) (want : BitVec 256 → Bool) (f : State → BitVec 256 → State) : State :=
  let r := ringOf s g
  match r.fetched with
  | d :: rest =>
    if want d then
      let t := f (setRing s g { r with fetched := rest }) d
      handNext g (ringOf t g).fetched.length t
    else s
  | [] => s

/-- A well-formed descriptor of an opcode. -/
def descIs (op : Nat) (d : BitVec 256) : Bool := descGood d && dOp d == op

/-- The descriptors of a turn whose completions can be reserved (R248). -/
def takeDescs (r : Ring) : Nat → List (BitVec 256) → Ring
  | 0, _ => r
  | _, [] => r
  | n + 1, d :: ds =>
    if r.announced = 0 ∨ r.room < descNeed d then r
    else takeDescs { r with sqHead := (r.sqHead + 1) % (2 * r.sqN), reserved := r.reserved + descNeed d
                            fetched := r.fetched ++ [d] } n ds

/-- A ring pair has a descriptor that may be fetched now (R248). -/
def fetchable (r : Ring) : Bool := r.state == .running && decide (r.announced > 0) && decide (r.room > 0)

/-- The ring pair whose turn it is: the next fetchable one after the last, of those whose function reaches its host
(R249). -/
def fetchTurn (s : State) : Option Nat :=
  let live := (s.host.rings.filter fun e => fetchable e.2 && hostReached s (ringPart e.1)).map (·.1)
  match live.find? (s.host.lastRing < ·) with
  | some g => some g
  | none => live.head?

/-- A well-formed management request. -/
def isMgmt (d : BitVec 256) : Bool := descGood d && dOp d == 8

/-- Descriptors enter a ring pair's list as they are fetched; a management request takes its place at once (R329). -/
def enterFetched (s : State) (g : Nat) (r : Ring) (new : List (BitVec 256)) : State :=
  let s := setRing s g { r with fetched := r.fetched ++ new.filter fun d => !isMgmt d }
  (new.filter isMgmt).foldl (fun s d => mgmtQueue s g d) s

/-- One fetch turn: up to 8 descriptors as host memory holds them, or a failed read (R248, R249, R255). -/
def fetchDescs (s : State) (g : Nat) (res : Option (List (BitVec 256))) : State :=
  if fetchTurn s ≠ some g then s
  else
    let s := { s with host := { s.host with lastRing := g } }
    match res with
    | none => ringError s g 2
    | some ds =>
      let old := (ringOf s g).fetched
      let r := takeDescs { ringOf s g with fetched := [] } 8 ds
      let s := enterFetched s g { r with fetched := old } r.fetched
      handNext g (ringOf s g).fetched.length s

/-! ### What each descriptor hands over (Tables 11-4 and 11-5) -/

/-- XFER (Table 10-3). -/
def descXfer (g : Nat) (s : State) (d : BitVec 256) : State :=
  submit s { src := .ring g (dTag d), part := ringPart g, qid := dBytes d 4 4, legs := BitVec.ofNat 16 (dBytes d 8 2)
             len := dBytes d 10 2, limit := dBytes d 16 8, addr := dBytes d 24 8, data := [] }

/-- RXBUF (R252). -/
def descRxbuf (g : Nat) (s : State) (d : BitVec 256) : State :=
  let r := ringOf s g
  let n := dBytes d 8 2
  if n = 0 ∨ n > 256 ∨ n < fld r.cfg.toNat 152 144 then done s g d stInvalid 0 0
  else if r.state = .running then setRing s g { r with rx := r.rx ++ [⟨dBytes d 24 8, n, dTag d⟩] }
  else ringIdle (setRing s g { r with reserved := r.reserved - 1 }) g

/-- LOAD (R156 to R158, R164, R165). `mask` holds the regions that the image's REGMASK names, which the loader reads
ahead in host memory at the request (DESIGN CHOICE, log 117); a region of another partition fails the load at the REGMASK
packet. -/
def descLoad (g : Nat) (mask : List Nat) (s : State) (d : BitVec 256) : State :=
  let fn := ringPart g
  let cg := dBytes d 1 1 % 4
  let claim := mask.filter fun r => regionPart s r == fn
  match loadRefusal s fn fn cg claim with
  | some (st, c) => done s g d st c 0
  | none => addLoad s (newLoad fn fn cg (.host g (dTag d) (dBytes d 24 8) (dBytes d 4 4)) claim s.clk.f1)

/-- SWAP (Table 8-2). -/
def descSwap (g : Nat) (s : State) (d : BitVec 256) : State :=
  let w := dBytes d 4 1
  swapDesc s (ringPart g) { cmd := fld w 1 0, cg := fld w 3 2, keep := bit w 4, next := bit w 5, frame := dBytes d 8 4
                            ring := some (g, dTag d), view := none }

/-- AFILE: the partition's range is busy from here to the DONE entry, and the file is read (R207, R255). -/
def descAfile (g : Nat) (s : State) (d : BitVec 256) : State :=
  let p := ringPart g
  if almBusy s p then done s g d stBusy 0 0
  else
    let n := dBytes d 4 4
    let a := dBytes d 24 8
    let s := setAlm s p fun x => { x with busy := some (.bulk g (dTag d) a n none 0 false) }
    if n = 0 then bulkRead s p (some []) else hostRead s (.schedule p) a n

/-- A page copy is requested by a descriptor (R208). -/
def copyRequest (s : State) (p : Nat) (r : Option (Nat × Word)) : State :=
  if almBusy s p then descDone s r stBusy pfBusy 0
  else setAlm s p fun a => { a with busy := some (.copy r) }

/-- A flip's CANCEL by a descriptor (R210). -/
def flipCancelReq (s : State) (p : Nat) (r : Option (Nat × Word)) : State :=
  if flipCancellable s p then descDone (flipEnd s p pfCancelled 0) r stOk 0 0 else descDone s r stRefused 0 0

/-- PGFLIP (R208 to R210). -/
def descFlip (g : Nat) (s : State) (d : BitVec 256) : State :=
  let w := dBytes d 4 1
  let p := ringPart g
  let r := some (g, dTag d)
  match fld w 1 0 with
  | 1 => flipRequest s p (bit w 5) (dBytes d 8 4) none r
  | 2 => flipCancelReq s p r
  | _ => copyRequest s p r

/-- MIGRATE (R235): VALUE is t0 when the status is OK. -/
def descMigrate (g : Nat) (s : State) (d : BitVec 256) : State :=
  let t0 := sysNow s
  let (st, s) := migrate s (ringPart g) (dBytes d 4 4) (dBytes d 8 2) (dBytes d 10 2)
  done s g d st 0 (if st = stOk then t0 else 0)

/-- A record goes into the first JDRAIN buffer that has room. -/
def putJbuf (now : Nat) (r : RingRec) : List JBuf → Option (List JBuf)
  | [] => none
  | b :: bs =>
    if b.recs.length < b.cap then
      some ({ b with recs := b.recs ++ [(r.seq, r.bytes)], opened := if b.recs.isEmpty then now else b.opened } :: bs)
    else (putJbuf now r bs).map (b :: ·)

/-- Records go into the open JDRAIN buffers in SEQ order, as far as there is room (R397). -/
def fillJbufs (s : State) : State :=
  let step := fun (acc : List JBuf × List RingRec) (r : RingRec) =>
    if r.inBuffer then (acc.1, acc.2 ++ [r])
    else match putJbuf s.clk.f1 r acc.1 with
      | some bs => (bs, acc.2 ++ [{ r with inBuffer := true }])
      | none => (acc.1, acc.2 ++ [r])
  let (bs, rs) := s.jrn.ring.foldl step (s.jrn.buffers, [])
  { s with jrn := { s.jrn with buffers := bs, ring := rs } }

/-- JDRAIN, from PF0 only (R397). -/
def descJdrain (g : Nat) (s : State) (d : BitVec 256) : State :=
  if ringPart g ≠ 0 then done s g d stDenied 0 0
  else if dBytes d 8 2 = 0 then done s g d stInvalid 0 0
  else fillJbufs { s with jrn := { s.jrn with buffers := s.jrn.buffers ++ [⟨g, dTag d, dBytes d 8 2, dBytes d 24 8, [], 0⟩] } }

/-- COPY waits on its partition's channel (R256). -/
def descCopy (g : Nat) (s : State) (d : BitVec 256) : State :=
  let p := ringPart g
  let f := dBytes d 1 1
  let c : Copy := { ring := g, tag := dTag d, sdev := bit f 0, ddev := bit f 1, len := dBytes d 4 4, dst := dBytes d 16 8
                    src := dBytes d 24 8, pos := none, unitData := none }
  { s with host := { s.host with dma := tmod [] s.host.dma p (· ++ [c]) } }

/-! ### The DMA engine (R256 to R258) -/

/-- Port B master code of the DMA engine (Table 6-1). -/
abbrev dmaMaster : Nat := 7

/-- The copy at the head of a channel. -/
def copyOf (s : State) (p : Nat) : Option Copy := (tget [] s.host.dma p).head?

/-- s with the copy at the head of a channel replaced. -/
def setCopy (s : State) (p : Nat) (c : Copy) : State :=
  { s with host := { s.host with dma := tmod [] s.host.dma p fun q => c :: q.drop 1 } }

/-- The copy of a channel ends: DONE with the bytes of the units written (Table 11-8). -/
def copyEnds (s : State) (p st : Nat) : State :=
  match copyOf s p with
  | none => s
  | some c =>
    let s := { s with host := { s.host with
      dma := tmod [] s.host.dma p (·.drop 1), reads := s.host.reads.filter fun r => r.what != .copyUnit p } }
    descDone s (some (c.ring, c.tag)) st 0 (c.pos.getD 0)

/-- What a device range covers: banks, DRAM windows, or neither (R257). -/
def rangeFault (s : State) (p a n : Nat) : Option Nat :=
  if 0x40000000 ≤ a ∧ a < 0x43000000 then
    if a + n > 0x43000000 then some stInvalid
    else
      let b0 := (a - 0x40000000) / bankSize
      let b1 := (a + n - 1 - 0x40000000) / bankSize
      if (upto b0 (b1 + 1 - b0)).any fun b => bankPart s b != p then some stDenied else none
  else match dramOf a with
  | none => some stInvalid
  | some o =>
    let mc := o / 0x2000000000
    let cap := (chanOf s mc).gib * 0x40000000
    let at_ := o % 0x2000000000
    if at_ + n > 0x2000000000 ∨ (at_ < cap ∧ at_ + n > cap) then some stInvalid
    else
      let w0 := dramWindow o
      let ws := upto w0 (dramWindow (o + n - 1) + 1 - w0)
      if ws.any fun w => windowPart s w != p then some stDenied
      else if ws.any fun w => !windowPresent s w then some stAbsent
      else if ws.any fun w => s.dram.filling.contains w then some stBusy
      else none

/-- The place of a status among the columns of Table 11-8, first to last. -/
def copyRank (st : Nat) : Nat :=
  if st = stInvalid then 0 else if st = stDenied then 1 else if st = stAbsent then 2 else 3

/-- The check of a copy before it moves any data (Table 11-8): the first failing row over both ranges. -/
def copyCheck (s : State) (p : Nat) (c : Copy) : Option Nat :=
  if (!c.sdev && !c.ddev) || c.len == 0 || decide (c.len > 16777216) then some stInvalid
  else
    let a := if c.sdev then rangeFault s p c.src c.len else none
    let b := if c.ddev then rangeFault s p c.dst c.len else none
    match a, b with
    | some x, some y => some (if copyRank y < copyRank x then y else x)
    | some x, none => some x
    | none, y => y

/-- The bytes of the unit in progress: the part of the copy in one aligned 64-byte block of the destination. -/
def unitSize (c : Copy) (k : Nat) : Nat := min (64 - (c.dst + k) % 64) (c.len - k)

/-- A channel has a unit in progress. -/
def unitRuns (s : State) (p : Nat) : Bool :=
  match copyOf s p with
  | some c => c.run.isSome || !c.dreqs.isEmpty || c.unitData.isSome || s.host.reads.any fun r => r.what == .copyUnit p
  | none => false

/-- A unit fails: it ends the copy (R257). -/
def unitFails (s : State) (p st : Nat) : State :=
  match copyOf s p with
  | some c => copyEnds s p (if c.abort then stAborted else st)
  | none => s

/-- A unit's access to device memory starts: a read of n bytes, or a write; at port B, or at a DRAM channel (R256). -/
def unitAccess (s : State) (p : Nat) (c : Copy) (a n : Nat) (bytes : Option (List Byte)) : State :=
  match bankOf a, dramOf a with
  | some _, _ =>
    let (r, s) := runStart s dmaMaster p a n false bytes
    setCopy s p { c with run := some r, dreqs := [], dgot := [] }
  | none, some o =>
    let (ids, s) := dramRequest s dmaMaster p o (match bytes with | some bs => .write bs | none => .read n)
    setCopy s p { c with run := none, dreqs := ids, dgot := [] }
  | none, none => unitFails s p stInvalid

/-- A unit has been written (R256 to R258). -/
def unitWritten (s : State) (p : Nat) (c : Copy) : State :=
  let k := c.pos.getD 0 + (c.unitData.getD []).length
  let s := setCopy s p { c with pos := some k, unitData := none, run := none, dreqs := [], dgot := [] }
  if k = c.len then copyEnds s p stOk else if c.abort then copyEnds s p stAborted else s

/-- A unit's source has been read: its bytes go to their destination (R256). -/
def unitStore (s : State) (p : Nat) (c : Copy) (bs : List Byte) : State :=
  let d := c.dst + c.pos.getD 0
  let c := { c with unitData := some bs }
  if c.ddev then unitAccess s p c d bs.length (some bs)
  else unitWritten (hostPut 2 (fnOf s (ringPart c.ring)).mps s d bs) p c

/-- The channel whose unit is next: round-robin over those with a copy under way (R256). -/
def unitTurn (s : State) : Option Nat :=
  firstSome (fun i =>
    let p := (s.host.lastDma + 1 + i) % 16
    match copyOf s p with
    | some c => if c.pos.isSome then some p else none
    | none => none) (List.range 16)

/-- The next unit of the channel in turn starts, once no other is in progress (R256). -/
def copyUnit (s : State) (p : Nat) : State :=
  if (List.range 16).any (unitRuns s) ∨ unitTurn s ≠ some p then s
  else match copyOf s p with
  | none => s
  | some c =>
    let k := c.pos.getD 0
    let s := { s with host := { s.host with lastDma := p } }
    if c.sdev then unitAccess s p c (c.src + k) (unitSize c k) none
    else hostRead s (.copyUnit p) (c.src + k) (unitSize c k)

/-- The bytes of a unit's access are there, or it has written its own. -/
def unitAccessed (s : State) (p : Nat) (c : Copy) (bs : List Byte) : State :=
  if c.unitData.isSome then unitWritten s p c else unitStore s p c bs

/-- A unit's port B accesses go on after a completion. -/
def unitBank (s : State) (p : Nat) (c : Copy) (r : BankRun) : State :=
  match runDone s r with
  | none => s
  | some (d, s) =>
    match runStep s dmaMaster p r d with
    | (.more r, s) => setCopy s p { c with run := some r }
    | (.ok bs, s) => unitAccessed s p { c with run := none } bs
    | (.failed st, s) => unitFails s p st

/-- A unit's DRAM requests go on after one has completed. -/
def unitDram (s : State) (p : Nat) (c : Copy) : State :=
  match c.dreqs with
  | [] => s
  | id :: ids =>
    match s.dram.done.find? (·.id == id) with
    | none => s
    | some d =>
      let s := { s with dram := { s.dram with done := s.dram.done.filter (·.id != id) } }
      let c := { c with dreqs := ids, dgot := c.dgot ++ d.data }
      if d.status ≠ stOk then unitFails s p d.status
      else if ids.isEmpty then unitAccessed s p { c with dgot := [] } c.dgot
      else setCopy s p c

/-- The DMA engine's channels at an F1 edge. -/
def dmaEdge (s : State) : State :=
  (s.host.dma.map (·.1)).foldl (fun s p =>
    match copyOf s p with
    | some c => (match c.run with
      | some r => unitBank s p c r
      | none => unitDram s p c)
    | none => s) s

/-- FLR or partition reset: the copy under way ends ABORTED once its unit in progress is written, and those not started
go (R258). A host read in progress ends with the function: its unit is not written. -/
def copiesAbort (s : State) (p : Nat) : State :=
  match copyOf s p with
  | none => s
  | some c =>
    let s := { s with host := { s.host with
      dma := tset [] s.host.dma p (if c.pos.isSome then [{ c with ring := deadRing, abort := true }] else [])
      reads := s.host.reads.filter fun r => r.what != .copyUnit p } }
    if c.pos.isSome && !unitRuns s p then copyEnds s p stAborted else s

/-- A channel takes its next copy and checks it (R257). -/
def copyStart (s : State) (p : Nat) : State :=
  match copyOf s p with
  | none => s
  | some c =>
    if c.pos.isSome then s
    else match copyCheck s p c with
    | some st => copyEnds s p st
    | none => setCopy s p { c with pos := some 0 }

/-! ### Completions (R250, R251) -/

/-- The entry of Table 11-6. -/
def cplBits (r : Ring) (c : Cpl) : Nat :=
  c.value % 2 ^ 64 * 2 ^ 64 + c.tag.toNat * 2 ^ 48 + c.aux % 65536 * 2 ^ 32 + r.sqHead % r.sqN * 65536
    + c.status % 256 * 256 + c.cause % 16 * 16 + c.kind % 8 * 2 + (1 - r.cqTail / r.cqN)

/-- The ring pair's message after an entry: at once without coalescing, else within COAL µs (R251). -/
def signal (s : State) (g : Nat) : State :=
  let r := ringOf s g
  if r.coal = 0 then sendMsix s (ringPart g) r.vec
  else setRing s g { r with unsignalled := some (r.unsignalled.getD s.clk.f1) }

/-- Journal records are taken by the host (R397). -/
def hostTakes (s : State) (seqs : List Nat) : State :=
  let ring := s.jrn.ring.map fun r => if seqs.contains r.seq then { r with hostTaken := true } else r
  sweepRing { s with jrn := { s.jrn with ring := ring } }

/-- A list without its first entry that a test accepts. -/
def dropFirst {α : Type} (p : α → Bool) (l : List α) : List α :=
  match pick p l with
  | some r => r.2
  | none => l

/-- The place of a partition's oldest ended management request frees (R329). -/
def freePlace (s : State) (p : Nat) : State :=
  { s with mgt := { s.mgt with places := tmod [] s.mgt.places p (dropFirst (·.ended)) } }

/-- The oldest request of a partition that has not ended, changed. -/
def modServed (f : MReq → MReq) : List MReq → List MReq
  | [] => []
  | m :: ms => if m.ended then m :: modServed f ms else f m :: ms

/-- The oldest completion entry whose function reaches its host is written (R250, R251). -/
def writeCompletion (s : State) : State :=
  match pick (fun c => hostReached s (ringPart c.ring)) s.host.cpl with
  | none => s
  | some (c, rest) =>
    let s := { s with host := { s.host with cpl := rest } }
    let r := ringOf s c.ring
    let s := c.writes.foldl (fun s w => emit s (.hostWrite w.1 w.2)) s
    let s := emit s (.hostWrite (fld r.cfg.toNat 127 64 + 16 * (r.cqTail % r.cqN)) (leBytes 16 (cplBits r c)))
    let s := setRing s c.ring { r with cqTail := (r.cqTail + 1) % (2 * r.cqN), reserved := r.reserved - c.release }
    let s := hostTakes (signal s c.ring) c.takes
    let s := match c.place with
      | some p => freePlace s p
      | none => s
    ringIdle s c.ring

/-- The coalescing window of a ring pair has run (R251). -/
def coalesceDue (s : State) (g : Nat) : State :=
  let r := ringOf s g
  match r.unsignalled with
  | some t =>
    if passed s t (r.coal * 600) then sendMsix (setRing s g { r with unsignalled := none }) (ringPart g) r.vec else s
  | none => s

/-! ### Reads of host memory (R255) -/

/-- The function that makes a host read. -/
def readFn (s : State) : ReadFor → Nat
  | .src tid => ((xferOf s tid).map (·.sub.part)).getD 0
  | .image v => if v < 16 then v else 0
  | .schedule p | .request p | .copyUnit p => p

/-- The bytes of a host read are complete. -/
def readDone (s : State) (r : HRead) (bs : List Byte) : State :=
  match r.what with
  | .src tid =>
    match xferOf s tid with
    | some x => dataIn s x bs
    | none => s
  | .image _ => s
  | .schedule p => bulkRead s p (some bs)
  | .request p =>
    let put := fun (m : MReq) => { m with bytes := some bs }
    { s with mgt := { s.mgt with places := tmod [] s.mgt.places p (modServed put) } }
  | .copyUnit p =>
    match copyOf s p with
    | some c => unitStore s p c bs
    | none => s

/-- A host read fails (R255): UE, or MEDIA for an image. -/
def readFails (s : State) (r : HRead) : State :=
  match r.what with
  | .src tid =>
    match xferOf s tid with
    | some x => sourceFailed s x stUe
    | none => s
  | .image v =>
    match s.ldr.running with
    | some l => if l.view = v then loadFail s l stRefused lcMedia else s
    | none => s
  | .schedule p => bulkRead s p none
  | .request p =>
    let put := fun (m : MReq) => { m with failed := true, bytes := some [] }
    { s with mgt := { s.mgt with places := tmod [] s.mgt.places p (modServed put) } }
  | .copyUnit p => unitFails s p stUe

/-- Image words arrive for a host load. -/
def imageBytes (s : State) (v : Nat) (bs : List Byte) : State :=
  match s.ldr.running with
  | some l => if l.view = v then setRunning s (some { l with buf := l.buf ++ wordsOf bs, lastData := s.clk.f1 }) else s
  | none => s

/-- A completion of a host read: the next of its bytes, in address order, or its failure (R255). -/
def readCompletion (s : State) (id : Nat) (res : HostRead) : State :=
  match pick (·.id == id) s.host.reads with
  | none => s
  | some (r, rest) =>
    let without := { s with host := { s.host with reads := rest } }
    match res with
    | .failed why => readFails (aerLog without (readFn s r.what) why) r
    | .data bs =>
      if bs.isEmpty ∨ bs.length > r.len then s
      else
        let more := decide (bs.length < r.len)
        let keep := fun (got : List Byte) =>
          let r' := { r with addr := r.addr + bs.length, len := r.len - bs.length, got := got }
          { s with host := { s.host with reads := s.host.reads.map fun x => if x.id = id then r' else x } }
        match r.what with
        | .image v =>
          if more && bs.length % 2 == 1 then s
          else imageBytes (if more then keep [] else without) v bs
        | _ => if more then keep (r.got ++ bs) else readDone without r (r.got ++ bs)

/-! ### FLR and loss of the host (R260, R261) -/

/-- s with every request in progress detached from the ring pairs of a function: nothing is written to them. -/
def forgetRings (s : State) (n : Nat) : State :=
  let mine := fun g => decide (g < deadRing) && ringPart g == n
  let opt := fun (r : Option (Nat × Word)) => match r with
    | some (g, t) => if mine g then none else some (g, t)
    | none => none
  let change := fun (c : Change) => match c with
    | .swap p cg k f b r v => Change.swap p cg k f b (opt r) v
    | c => c
  let entry := fun (e : JEntry) => { e with changes := e.changes.map change }
  let alm := fun (a : AlmPart) => { a with
    flip := a.flip.map fun f => { f with ring := opt f.ring }
    busy := a.busy.bind fun b => match b with
      | .copy r => some (.copy (opt r))
      | .bulk g t x l es c w => if mine g then (if es.isNone then none else some (.bulk deadRing t x l es c w))
                                else some (.bulk g t x l es c w) }
  let place := fun (m : MReq) => if mine m.ring then { m with ring := deadRing } else m
  let sched := fun (g : Group) => { g with sched := g.sched.map fun q => { q with ring := opt q.ring } }
  { s with
    jrn := { s.jrn with intake := s.jrn.intake.map entry, waiting := s.jrn.waiting.map entry }
    alm := { s.alm with parts := s.alm.parts.map fun e => (e.1, alm e.2) }
    mgt := { s.mgt with places := s.mgt.places.map fun e => (e.1, e.2.map place) }
    swp := { s.swp with groups := s.swp.groups.map fun e => (e.1, sched e.2) } }

/-- The transfers submitted on a function's rings go, without completion, and their booked positions with them. -/
def dropTransfers (s : State) (n : Nat) : State :=
  let mine := fun (x : Xfer) => match x.sub.src with
    | .ring g _ => ringPart g == n
    | _ => false
  let gone := s.qe.xfers.filter mine
  let s := gone.foldl (fun s x => x.legs.foldl returnBuf s) s
  let s := { s with qe := { s.qe with xfers := s.qe.xfers.filter fun x => !mine x } }
  gone.foldl (fun s x => x.legs.foldl (fun s l => drainIfEmpty s l.qid) s) s

/-- What a function's host reads are for. -/
def readFor (n : Nat) : ReadFor → Bool
  | .src _ => false
  | .image v => v == n
  | .schedule p => p == n
  | .copyUnit _ | .request _ => false

/-- JDRAIN buffers still held are discarded: their records go into later buffers (R397). -/
def dropJbufs (s : State) : State :=
  { s with jrn := { s.jrn with buffers := [], ring := s.jrn.ring.map fun r => { r with inBuffer := r.hostTaken } } }

/-- The actions of FLR on one function (R260). -/
def flrActions (s : State) (n : Nat) : State :=
  let s := endViewLoad s n stAborted
  let s := copiesAbort (forgetRings (dropTransfers s n) n) n
  let s := if n = 0 then dropJbufs s else s
  let leg := fun (l : Leg) => match egressOf l.egress with
    | some (.host g) => if ringPart g = n then { l with rxbuf := none } else l
    | _ => l
  let xfer := fun (x : Xfer) => { x with legs := x.legs.map leg }
  let s := { s with qe := { s.qe with xfers := s.qe.xfers.map xfer } }
  let gone := s.host.cpl.filter fun c => ringPart c.ring == n
  let s := gone.foldl (fun s c => match c.place with
    | some p => freePlace s p
    | none => s) s
  let s := { s with host := { s.host with
    rings := tkeep (fun g => ringPart g != n) s.host.rings
    cpl := s.host.cpl.filter fun c => ringPart c.ring != n
    reads := s.host.reads.filter fun r => !readFor n r.what
    fns := tset {} s.host.fns n {} } }
  raiseEv s (1600 + n)

/-- FLR of a function that exists (R240, R260). PF0's configuration space holds NumVFs. -/
def flr (s : State) (n : Nat) : State :=
  if !functionExists s n then s
  else
    let s := flrActions s n
    if n = 0 then { s with host := { s.host with numVFs := 0 } } else s

/-- The host side goes away (R261): every function is reset, whether or not the link was up. -/
def hostLost (s : State) : State :=
  let up := s.host.rate != 0
  let s := (List.range 16).foldl flrActions s
  let s := { s with host := { s.host with rate := 0, width := 0, hcap := 0, numVFs := 0, fns := [] } }
  if up then raiseEv s 1616 else s

/-! ### The commands -/

/-- SQ_DOORBELL: a doorbell whose Q is 0; a write of another size or offset is dropped (R245). -/
def execSqDoorbell (page : Nat) (val : BitVec 32) (s : State) (off : Nat := 0) (size : Nat := 4) : Result :=
  .next (if bit val.toNat 29 || !isDoorbell off size then s else doorbell s page val.toNat)

/-- CQ_DOORBELL: a doorbell whose Q is 1. -/
def execCqDoorbell (page : Nat) (val : BitVec 32) (s : State) (off : Nat := 0) (size : Nat := 4) : Result :=
  .next (if bit val.toNat 29 && isDoorbell off size then doorbell s page val.toNat else s)

/-- DESCRIPTOR_FETCH. -/
def execDescriptorFetch (g : Nat) (res : Option (List (BitVec 256))) (s : State) : Result := .next (fetchDescs s g res)

/-- XFER. -/
def execXfer (g : Nat) (s : State) : Result := .next (handOverIf s g (descIs 1) (descXfer g))

/-- RXBUF. -/
def execRxbuf (g : Nat) (s : State) : Result := .next (handOverIf s g (descIs 2) (descRxbuf g))

/-- LOAD. -/
def execLoad (g : Nat) (s : State) (mask : List Nat := []) : Result := .next (handOverIf s g (descIs 3) (descLoad g mask))

/-- AFILE. -/
def execAfile (g : Nat) (s : State) : Result := .next (handOverIf s g (descIs 5) (descAfile g))

/-- JDRAIN. -/
def execJdrain (g : Nat) (s : State) : Result := .next (handOverIf s g (descIs 9) (descJdrain g))

/-- COPY. -/
def execCopy (g : Nat) (s : State) : Result := .next (handOverIf s g (descIs 10) (descCopy g))

/-- DESC_INVALID. -/
def execDescInvalid (g : Nat) (s : State) : Result :=
  .next (handOverIf s g (fun d => !descGood d) fun s d => done s g d stInvalid 0 0)

/-- COPY_START. -/
def execCopyStart (p : Nat) (s : State) : Result := .next (copyStart s p)

/-- UNIT. -/
def execUnit (p : Nat) (s : State) : Result := .next (copyUnit s p)

/-- COMPLETION_WRITE. -/
def execCompletionWrite (s : State) : Result := .next (writeCompletion s)

/-- MSIX_COALESCE. -/
def execMsixCoalesce (g : Nat) (s : State) : Result := .next (coalesceDue s g)

/-- HCAP_CHANGE: the link enters L0 with a rate code and a number of lanes; the new capacity applies from the next slot
edge (R254). -/
def execHcapChange (rate width : Nat) (s : State) : Result :=
  .next (if s.mode.busUp && decide (1 ≤ rate ∧ rate ≤ 5) && (width == 1 || width == 2 || width == 4 || width == 8) then
      let t := { s with host := { s.host with rate := rate, width := width } }
      if s.host.rate = 0 then raiseEv t 1617 else t
    else s)

/-- FLR. -/
def execFlr (fn : Nat) (s : State) : Result := .next (if s.host.rate = 0 then s else flr s fn)

/-- LINK_DOWN: link down, Hot Reset and PERST_N act alike; a link that is down does not go down again. -/
def execLinkDown (why : HostLoss) (s : State) : Result :=
  .next (if s.host.rate = 0 ∧ why = .linkDown then s else hostLost s)

/-- HOST_READ_COMPLETION. -/
def execHostReadCompletion (id : Nat) (res : HostRead) (s : State) : Result := .next (readCompletion s id res)

end Sys2Proof.Machine
end

