-- ==== Sys2Proof/Machine/Segments.lean ====
section
/-! DEFINITION. Segment ports on shared media: roles, PLCA, rosters, classification of what the medium carries, booked
and unbooked frames, absence, counters (R263 to R283). -/

namespace Sys2Proof.Machine

/-! ### Counters of Table 12-4: place in `Seg.cnt` -/

abbrev cSymErr : Nat := 0
abbrev cFalseCar : Nat := 1
abbrev cJabber : Nat := 2
abbrev cLateCol : Nat := 3
abbrev cColl : Nat := 4
abbrev cFcsErr : Nat := 5
abbrev cStranger : Nat := 6
abbrev cTheft : Nat := 7
abbrev cOverburst : Nat := 8
abbrev cTxErr : Nat := 9
abbrev cRetries : Nat := 10
abbrev cBeaconErr : Nat := 11
abbrev cTxFrames : Nat := 12
abbrev cRxFrames : Nat := 13
abbrev cMaxCyc : Nat := 15

/-- A THEFT, an OVERBURST, a STRANGER: counted, with their events (Table 12-3, SEG_EVT). -/
def theft (s : State) (k : Nat) : State := segEvent (countSeg s k cTheft) k 14
def overburst (s : State) (k : Nat) : State := segEvent (countSeg s k cOverburst) k 13
def strangerSeen (s : State) (k : Nat) : State := segEvent (countSeg s k cStranger) k 15

/-- Errors on the medium: counted, with NOISE. -/
def noise (s : State) (k j : Nat) : State := segEvent (countSeg s k j) k 8

/-- A leg's window on its port is running (R274, R275). -/
def windowOpen (s : State) (k : Nat) (l : Leg) : Bool :=
  l.egress == k && l.cls == 1 && l.ending == .running && l.live
    && (match l.booked with
      | b :: _ => decide (b.slot ≤ sysNow s)
      | [] => false)

/-- A fact recorded against the transfer whose window runs on a port (R272, R277). -/
def segFact (s : State) (k : Nat) (c : LateCause) : State :=
  noteLegs s fun _ l => if windowOpen s k l then { l with facts := l.facts ++ [c] } else l

/-! ### Register checks (R264 to R266, R270) -/

/-- SEG_OWN. -/
def segOwnCheck (s : State) (k : Nat) : Option Nat :=
  if heldOn s k || bookedOn s k || queueNames s k then some stBusy else none

/-- SEG_CTL. -/
def segCtlCheck (s : State) (k val : Nat) : Option Nat :=
  let role := fld val 15 14
  let n := fld val 13 8
  let own := if role = 2 then 0 else fld val 7 2
  if (role ≥ 2 ∧ n = 0) ∨ (role = 3 ∧ (own = 0 ∨ own > n)) then some stInvalid
  else if (rosterOf s k).any fun r => decide (rNode r > n) || (decide (role ≥ 2) && rNode r == own) then some stInvalid
  else if bookedOn s k && val / 4 != segCtl s k / 4 then some stBusy
  else none

/-- A port's PHY starts anew (R265). A follower leaves ACTIVE with it: a fact for the window that runs (R277). -/
def segRestart (s : State) (k : Nat) : State :=
  let s := if segRole s k = 3 ∧ (segOf s k).state = .active then segFact s k .partnerAbsent else s
  setSeg s k fun g => { g with
    state := .off, node := 64, oppBytes := 0, oppFrames := 0, cycleStart := none, lastBeacon := s.clk.f1, lost := false
    onMedium := none }

/-- A SEG_CTL write takes effect. -/
def segCtlApply (s : State) (k : Nat) (val : Word) : State :=
  let changed := val.toNat / 4 != segCtl s k / 4
  let s := setDev s (0x60400 + 4 * k) 0 val
  if changed then segRestart s k else s

/-- SEG_PLCA and SEG_MAXB: raising the cycle bound is BUSY while a promised cell is booked. -/
def segPlcaCheck (s : State) (k val : Nat) : Option Nat :=
  if val / 256 = 0 then some stInvalid
  else if bookedOn s k && decide (val / 256 > segPlca s k / 256) then some stBusy else none
def segMaxbCheck (s : State) (k val : Nat) : Option Nat :=
  if val < 84 then some stInvalid else if bookedOn s k && decide (val > segMaxb s k) then some stBusy else none

/-- The entry a view has loaded, SEG_RENT0 to SEG_RENT7. -/
def stagedEntry (s : State) (v : View) : Nat := wordsVal ((List.range 8).map fun k => vw s v (0x62000 + 4 * k) 0)

/-- The other entries of a port. -/
def otherEntries (s : State) (k e : Nat) : List Nat :=
  (((List.range 64).filter (· != e)).map (rosterEntry s k)).filter rValid

/-- Why a roster commit is refused (R270). -/
def rosterCheck (s : State) (v : View) (val : Nat) : Option Nat :=
  let k := fld val 13 6
  let e := fld val 5 0
  let p := viewPart s v
  let r := stagedEntry s v
  let others := otherEntries s k e
  if k ≥ 192 ∨ segPart s k ≠ p ∨ (rRxen r ∧ !ownsQid s p (rRxq r)) then some stDenied
  else if rValid r && ((decide (1 ≤ rMaxb r) && decide (rMaxb r ≤ 83)) || fld r 119 116 != 0 || fld r 79 48 != 0
      || others.any (fun o => rNode o == rNode r || rMac o == rMac r)
      || (decide (segRole s k ≥ 2) && rNode r == ownNode s k) || decide (rNode r > segNcm1 s k)) then some stInvalid
  else if bookedOn s k && decide (cycleBoundOf s k (others ++ [r].filter rValid) > cycleBound s k) then some stBusy
  else none

/-- A roster commit takes effect: the entry's absence timer restarts (R279), and frames that began before it are judged
by the entry they began under (R270). -/
def rosterApply (s : State) (v : View) (val : Nat) : State :=
  let k := fld val 13 6
  let e := fld val 5 0
  let r := stagedEntry s v
  let old := rosterEntry s k e
  let s := { s with roster := tset 0 s.roster (64 * k + e) (BitVec.ofNat 128 r) }
  setSeg s k fun g => { g with
    heard := tset 0 g.heard (rNode r) s.clk.f1
    absent := sdel (rNode r) (if rValid old then sdel (rNode old) g.absent else g.absent)
    rosterLog := (g.rosterLog.filter fun x => !passed s x.1 (frameCycles 1518)) ++ [(s.clk.f1, e, BitVec.ofNat 128 old)] }

/-! ### The PLCA cycle (R265, R271, R280, R282) -/

/-- A cycle ends: MAXCYC. -/
def cycleEnds (s : State) (k : Nat) : State :=
  match (segOf s k).cycleStart with
  | none => s
  | some f => setSeg s k fun g => { g with cnt := tmod 0 g.cnt cMaxCyc fun n => max n (sat 16 (cdiv (s.clk.f1 - f) 600)) }

/-- A BEACON begins a cycle: node 0's opportunity. -/
def cycleBegins (s : State) (k : Nat) : State :=
  setSeg (cycleEnds s k) k fun g => { g with
    node := 0, oppStart := sysNow s, oppBytes := 0, oppFrames := 0, cycleStart := some s.clk.f1 }

/-- The coordinator sends a BEACON when no opportunity runs. -/
def beacon (s : State) (k : Nat) : State :=
  if segState s k = .active ∧ segRole s k = 2 ∧ (segOf s k).node > segNcm1 s k then
    emit (cycleBegins s k) (.segBeacon k)
  else s

/-- A follower receives a valid BEACON (R265, R280). -/
def beaconReceived (s : State) (k : Nat) : State :=
  if segOn s k ∧ segRole s k = 3 then
    let s := if (segOf s k).lost then segEvent s k 9 else s
    cycleBegins (setSeg s k fun g => { g with state := .active, lost := false, lastBeacon := s.clk.f1 }) k
  else s

/-- A follower has heard no valid BEACON for 400 µs (R280). -/
def beaconLost (s : State) (k : Nat) : State :=
  let g := segOf s k
  if segOn s k ∧ segRole s k = 3 ∧ !g.lost ∧ passed s (max g.lastBeacon s.runSince) 240000 then
    let s := segFact s k .partnerAbsent
    segEvent (countSeg (setSeg s k fun g => { g with
      state := .fallback, lost := true, node := 64, cycleStart := none }) k cBeaconErr) k 10
  else s

/-- The running opportunity ends in silence, and the next node's begins; the last one ends the cycle. -/
def nextNode (s : State) (k : Nat) : State :=
  let n := (segOf s k).node
  if segState s k = .active ∧ n ≤ segNcm1 s k then
    setSeg s k fun g => { g with
      node := if n + 1 > segNcm1 s k then 64 else n + 1, oppStart := sysNow s, oppBytes := 0, oppFrames := 0 }
  else s

/-! ### The ET9's own frames (R275, R278) -/

/-- Bytes of a transfer as one frame, padded to 60 (R267). -/
def frameOf (x : Xfer) : List Byte :=
  let bs := (x.data.getD []).take (x.sub.len + 1)
  bs ++ List.replicate (60 - bs.length) 0

/-- Wire bytes of a transfer. -/
def wireOf (x : Xfer) : Nat := wireSize (x.sub.len + 1)

/-- A whole frame of a leg may leave: every cell in the cell buffer, and for a shaped one a token for each, or a full
bucket where BURST is less than that (DESIGN CHOICE, log 110). -/
def frameReady (s : State) (x : Xfer) (l : Leg) : Bool :=
  x.spill.isEmpty && l.left == cellsOf x.sub.len
    && (l.deliverAs != 2 || decide ((queueOf s l.qid).tokens ≥ 1000 * min l.left (qBurst (qcfg s l.qid))))

/-- The booked transfer whose window runs on a port. -/
def bookedFrame (s : State) (k : Nat) : Option (Xfer × Leg) :=
  firstSome (fun x => (x.legs.find? (windowOpen s k)).map fun l => (x, l)) s.qe.xfers

/-- A booked transfer may be attempted in the running opportunity (R275). -/
def mayAttempt (s : State) (k : Nat) (x : Xfer) (l : Leg) : Bool :=
  let g := segOf s k
  match l.booked with
  | b :: _ =>
    x.data.isSome && epochOpen s l && !(l.facts.any fun c => c == .hostStall || c == .ue)
      && decide (l.attempts ≤ l.retry) && decide (b.slot ≤ g.oppStart)
      && decide (g.oppStart + 800 * wireOf x ≤ b.finish)
  | [] => false

/-- A CLASS 1 window of the owner covers the running slot: best-effort only (R231). -/
def bestEffortOnly (s : State) (k : Nat) : Bool :=
  (actingEntries s (segPart s k) k).any fun e => aKind e == 2 && aClass e == 1

/-- The frame of a class that a port sends next: of those that are whole (R231, R278). -/
def frameTurn (s : State) (k cls : Nat) : Option (Xfer × Leg) :=
  turnOf s k (segPart s k) cls ((readyLegs s k cls).filter fun r => frameReady s r.1 r.2)

/-- The shaped or best-effort frame that a port sends next (R231, R278). -/
def nextFrame (s : State) (k : Nat) : Option (Xfer × Leg) :=
  match if bestEffortOnly s k then none else frameTurn s k 2 with
  | some r => some r
  | none => frameTurn s k 3

/-- A frame is delivered: its last FCS bit is on the medium (R275). -/
def frameSent (s : State) (k : Nat) (x : Xfer) (l : Leg) : State :=
  let late := l.ending != .running
  let s := emit (countSeg s k cTxFrames) (.segFrame k (frameOf x))
  let s := if l.deliverAs = 2 then setQueue s l.qid fun q => { q with tokens := q.tokens - 1000 * l.left } else s
  let s := countQueue s l.qid fun c =>
    if late then { c with lateCells := sat 16 (c.lateCells + l.left) } else { c with delivered := sat 32 (c.delivered + l.left) }
  let rr := k * 64 + 2 * x.sub.part + (if l.deliverAs = 2 then 0 else 1)
  let s := { s with qe := { s.qe with rrq := tset 0 s.qe.rrq rr (l.qid + 1) } }
  let s := setLeg s x.tid { l with
    left := 0, booked := [], attempts := l.attempts + 1, ending := if late then l.ending else .delivered }
  dropIfDone (drainIfEmpty s l.qid) x.tid

/-- What a failed attempt counts: a collision, a TXERR; one that a restart cuts off only the attempt (R265, R271). -/
def failCounted (s : State) (k : Nat) (res : TxResult) : State :=
  match res with
  | .coll =>
    let s := countSeg s k cColl
    if segState s k == .active then segFact (theft s k) k .stranger else s
  | .txerr => segFact (noise s k cTxErr) k .medium
  | .good | .cut => s

/-- A failed attempt: counted, and the frame waits for the next one; an unbooked frame is dropped after 16 (R278). -/
def attemptFails (s : State) (k : Nat) (x : Xfer) (l : Leg) (res : TxResult) : State :=
  let s := failCounted s k res
  let tried := l.attempts + 1
  match legOf s x.tid l.idx with
  | none => s
  | some (_, l) =>
    if l.deliverAs ≠ 1 ∧ tried ≥ 16 then
      let s := setLeg s x.tid { l with
        left := 0, attempts := tried, ending := if l.ending = .running then .failed stAborted 1 else l.ending }
      dropIfDone (drainIfEmpty s l.qid) x.tid
    else setLeg s x.tid { l with attempts := tried }

/-- One transmission of a frame, unless a cell of it reads as uncorrectable (Table 14-4). -/
def transmit (s : State) (k : Nat) (x : Xfer) (l : Leg) (res : TxResult) : State :=
  match x.bad with
  | i :: _ => cellLost s x i
  | [] =>
    let s := if l.attempts > 0 then countSeg s k cRetries else s
    if res = .good then frameSent s k x l else attemptFails s k x l res

/-- The ET9 sends one frame in its own opportunity: the booked one, whatever SEG_MAXB has been lowered to since (R276), or
as many unbooked ones as MAXBC and SEG_MAXB allow; a failed attempt ends the opportunity for it (R263, R275). -/
def ownOpportunity (s : State) (k : Nat) (res : TxResult) : State :=
  let g := segOf s k
  if segState s k ≠ .active ∨ g.node ≠ ownNode s k then s
  else
    let booked := bookedFrame s k
    let pickFrame := match booked with
      | some (x, l) => if mayAttempt s k x l then some (x, l) else none
      | none => nextFrame s k
    match pickFrame with
    | none => s
    | some (x, l) =>
      if g.oppFrames > segPlca s k % 256 ∨ (booked.isNone ∧ g.oppBytes + wireOf x > segMaxb s k) then s
      else
        let s := setSeg s k fun g => { g with
          oppBytes := g.oppBytes + wireOf x, oppFrames := if res = .good then g.oppFrames + 1 else 256 }
        transmit s k x l res

/-- CSMA/CD: an unbooked frame is attempted (R278). -/
def csmaAttempt (s : State) (k : Nat) (res : TxResult) : State :=
  if segState s k = .csma ∨ segState s k = .fallback then
    match nextFrame s k with
    | some (x, l) => transmit s k x l res
    | none => s
  else s

/-! ### What the medium carries (R268, R271) -/

/-- A valid frame's effect on its node's absence, its counters and its queue (R268, R279). -/
def rosterFrame (s : State) (k r : Nat) (bs : List Byte) : State :=
  let n := rNode r
  let back := (segOf s k).absent.contains n
  let s := setSeg s k fun g => { g with heard := tset 0 g.heard n s.clk.f1, absent := sdel n g.absent }
  let s := if back then segEvent s k 11 else s
  if rRxen r then
    submit s { src := .seg k, part := segPart s k, qid := rRxq r, legs := 0, len := bs.length - 1, limit := 0, addr := 0
               data := bs }
  else s

/-- The last stranger (Table 12-4): the SYSTIME is that of its first bit. -/
def strangerFrame (s : State) (k mac n : Nat) (active : Bool) (l : Nat) : State :=
  let s := setSeg s k fun g => { g with
    stranger := { mac := BitVec.ofNat 48 mac, node := n % 64, csma := !active, sys := sysNow s - 800 * (max l 60 + 12) } }
  strangerSeen s k

/-- A valid frame is observed, and judged by the roster that stood when it began (Table 12-3, R271). What others send in
the ET9's own opportunity takes nothing of its burst (R275). -/
def frameSeen (s : State) (k : Nat) (bs : List Byte) : State :=
  let active := segState s k == .active
  let mac := beVal ((bs.drop 6).take 6)
  let roster := rosterAt s k (s.clk.f1 - frameCycles bs.length)
  let n := (segOf s k).node
  let own := active && n == ownNode s k
  let bytes := (segOf s k).oppBytes + wireSize bs.length
  let entry := roster.find? fun r => rMac r == mac
  let s := countSeg (setSeg s k fun g => { g with oppBytes := if own then g.oppBytes else bytes }) k cRxFrames
  let s := match entry with
    | some r =>
      if !active then s
      else if own || rNode r != n then segFact (theft s k) k .stranger
      else if bytes > rMaxb r then segFact (overburst s k) k .stranger
      else s
    | none =>
      let s := strangerFrame s k mac n active bs.length
      if active then
        segFact (if own || roster.any (rNode · == n) then theft s k else s) k .stranger
      else s
  match entry with
  | some r => rosterFrame s k r bs
  | none => s

/-- A transmission that the port observes (Table 12-3). -/
def mediumEvent (s : State) (k : Nat) (ev : MediumEvent) : State :=
  let active := segState s k == .active
  let own := active && (segOf s k).node == ownNode s k
  let stolen := fun (s : State) => if own then segFact (theft s k) k .stranger else s
  let err := fun (s : State) (j : Nat) (sent : Bool) =>
    let s := segFact (noise s k j) k .medium
    if sent then stolen s else s
  let ended := setSeg s k fun g => { g with onMedium := none }
  if segState s k = .off then s
  else match ev with
  | .begins mac => setSeg s k fun g => { g with onMedium := some mac }
  | .frame bs => if bs.length < 60 ∨ bs.length > 1518 then stolen ended else frameSeen ended k bs
  | .collision =>
    let s := countSeg ended k cColl
    if active then segFact (theft s k) k .stranger else s
  | .symErr => err s cSymErr false
  | .falseCar => err s cFalseCar false
  | .jabber => err ended cJabber true
  | .badFcs => err ended cFcsErr true
  | .lateCol => err ended cLateCol false

/-- A roster node has been silent for SEG_ABS ms (R279). -/
def nodeAbsent (s : State) (k e : Nat) : State :=
  let r := rosterEntry s k e
  let n := rNode r
  let since := max (tget 0 (segOf s k).heard n) s.runSince
  if segOn s k && rValid r && decide (rMaxb r > 0) && decide (segAbs s k > 0) && !(segOf s k).absent.contains n
      && passed s since (segAbs s k * 600000) then
    segEvent (setSeg s k fun g => { g with absent := sins n g.absent }) k 12
  else s

/-! ### The commands -/

/-- BEACON. -/
def execBeacon (k : Nat) (s : State) : Result := .next (beacon s k)

/-- BEACON_RECEIVED. -/
def execBeaconReceived (k : Nat) (s : State) : Result := .next (beaconReceived s k)

/-- BEACONERR. -/
def execBeaconerr (k : Nat) (s : State) : Result := .next (beaconLost s k)

/-- TO_TIMER. -/
def execToTimer (k : Nat) (s : State) : Result := .next (nextNode s k)

/-- TRANSMIT_OPPORTUNITY. -/
def execTransmitOpportunity (k : Nat) (res : TxResult) (s : State) : Result := .next (ownOpportunity s k res)

/-- CSMA_ATTEMPT. -/
def execCsmaAttempt (k : Nat) (res : TxResult) (s : State) : Result := .next (csmaAttempt s k res)

/-- SEG_FRAME_RECEIVED. -/
def execSegFrameReceived (k : Nat) (ev : MediumEvent) (s : State) : Result := .next (mediumEvent s k ev)

/-- NODE_ABSENT. -/
def execNodeAbsent (k e : Nat) (s : State) : Result := .next (if e < 64 then nodeAbsent s k e else s)

end Sys2Proof.Machine
end

