-- ==== Sys2Proof/Machine/Links.lean ====
section
/-! DEFINITION. Detuong links: the link slot, cells received, link states, handshake, incarnations, the time source (R284
to R299). -/

namespace Sys2Proof.Machine

/-! ### Counters of R299: place in `Link.cnt` -/

abbrev kCellErr : Nat := 0
abbrev kRxDeny : Nat := 1
abbrev kHopLim : Nat := 3
abbrev kGapCells : Nat := 4
abbrev kRetrain : Nat := 5
abbrev kAbsent : Nat := 6

/-- A bit of LNK_EVT sets; a rising bit raises the link's event. -/
def linkEvent (s : State) (k b : Nat) : State :=
  let w := (dev s (0x70160 + 4 * k) 0).toNat
  if bit w b then s else raiseEv (setDev s (0x70160 + 4 * k) 0 (BitVec.ofNat 16 (w + 2 ^ b))) (1216 + k)

/-- LNK_DEVID, LNK_GMID, LNK_RETRY, LNK_ASYM. -/
def devid (s : State) : Nat := (dev s 0x70000 0).toNat % 4096
def gmid (s : State) : Nat := (dev s 0x70004 0).toNat % 4096
def lnkRetry (s : State) : Nat := (dev s 0x70008 0x000A).toNat
def lnkAsym (s : State) (k : Nat) : Int := sgn 16 (dev s (0x70120 + 4 * k) 0).toNat

/-- Code of a link state (Table 13-6). -/
def LinkState.code : LinkState → Nat
  | .off => 0 | .train => 1 | .handshake => 2 | .up => 3 | .retrain => 4 | .absent => 5 | .error => 6

/-- The link receives valid SLOT blocks: the last came less than 16 µs ago (R296). -/
def linkHeard (s : State) (k : Nat) : Bool :=
  match (linkOf s k).lastValid with
  | some t => !passed s t 9600
  | none => false

/-! ### The time source (R290, R292) -/

/-- A link may be the time source. -/
def timeCandidate (s : State) (k : Nat) : Bool :=
  let l := linkOf s k
  linkState s k == .up && bit (dev s (0x70100 + 4 * k) 0).toNat 14 && l.pGmid == gmid s && decide (l.pHops ≤ 30)

/-- The time source chosen now: the lowest HOPS, then the lowest link. -/
def bestSource (s : State) : Option Nat :=
  if !isFollower s then none
  else ((List.range 8).filter (timeCandidate s)).foldl (fun b k => match b with
    | some j => if (linkOf s k).pHops < (linkOf s j).pHops then some k else some j
    | none => some k) none

/-- OOS sets, with its event (R192, R292). -/
def setOos (s : State) : State :=
  let t := { s with clk := { s.clk with oos := true, lock := false, streak := 0 } }
  if s.clk.oos then t else raiseEv t 1781

/-- The choice of the time source is remade; without one a follower goes into holdover (R290, R292). -/
def chooseSource (s : State) : State :=
  let b := bestSource s
  let t := if b = s.timeSrc then s else raiseEv { s with timeSrc := b } 1224
  if isFollower s && b.isNone then setOos t else t

/-- HOPS that the ET9 sends (R290). -/
def ownHops (s : State) : Nat :=
  match fld (timCtl s) 14 13, s.timeSrc with
  | 1, _ => 0
  | 2, some k => (linkOf s k).pHops + 1
  | _, _ => 0xFF

/-- GMID that the ET9 sends: its own as grandmaster, else LNK_GMID. -/
def ownGmid (s : State) : Nat := if fld (timCtl s) 14 13 = 1 then devid s else gmid s

/-! ### States (R293 to R298) -/

/-- The time source is chosen again when a link that was UP no longer is. -/
def leftUp (before : LinkState) (k : Nat) (s : State) : State :=
  if before = .up ∧ s.timeSrc = some k then chooseSource s else s

/-- A link enters ABSENT (R297). -/
def enterAbsent (s : State) (k : Nat) : State :=
  let was := linkState s k
  let s := setLink s k fun l => { l with
    state := .absent, grants := false, retryAt := some (s.clk.f1 + lnkRetry s * 600000), upAfter := none }
  leftUp was k (linkEvent (countLink s k kAbsent) k 15)

/-- ABSENT is due: UP or RETRAIN without a valid SLOT block for 16 µs, or UP with a partner in TRAIN or ABSENT (R296). -/
def absentDue (s : State) (k : Nat) : Bool :=
  let l := linkOf s k
  match linkState s k with
  | .up => !linkHeard s k || l.pState == 1 || l.pState == 5
  | .retrain => !linkHeard s k
  | _ => false

/-- A link enters HANDSHAKE and sends HELLO (R294, R297). -/
def enterHandshake (s : State) (k : Nat) (afterAbsent : Bool) : State :=
  let s := setLink s k fun l => { l with
    state := .handshake, sentAck := false, gotAck := false, sendReady := false, gotReady := false
    afterAbsent := afterAbsent, hsStart := s.clk.f1, retryAt := none, upAfter := none }
  emit s (.linkHs k 1 s.flash.inc)

/-- A link enters RETRAIN (R296). -/
def enterRetrain (s : State) (k : Nat) : State :=
  let s := setLink s k fun l => { l with state := .retrain }
  leftUp .up k (linkEvent (countLink s k kRetrain) k 12)

/-- A link enters UP. -/
def enterUp (s : State) (k : Nat) : State :=
  linkEvent (setLink s k fun l => { l with state := .up, upAfter := none, grants := true, acts := true }) k 14

/-- READY is sent once ACK has been sent and an ACK with the own INC received (R295). -/
def maybeReady (s : State) (k : Nat) : State :=
  let l := linkOf s k
  if l.sentAck && l.gotAck && !l.sendReady then
    emit (setLink s k fun l => { l with sendReady := true }) (.linkHs k 3 s.flash.inc)
  else s

/-- Every cell queued for a link is discarded at a rejoin with a new incarnation: LATE if promised and not yet
reported, else ABSENT (Table 13-7). -/
def discardQueued (s : State) (k : Nat) : State :=
  let e := 192 + k
  let s := s.qe.xfers.foldl (fun s x => x.legs.foldl (fun s l =>
    if l.egress = e ∧ l.live ∧ l.cls = 1 ∧ l.ending = .running then reportLate s x l .partnerAbsent else s) s) s
  let s := mapLegs s fun _ l =>
    if l.egress = e ∧ l.live then
      { l with left := 0, booked := [], ending := if l.ending = .running then .failed stAbsent 0 else l.ending }
    else l
  s.qe.xfers.foldl (fun s x => dropIfDone (x.legs.foldl (fun s l => drainIfEmpty s l.qid) s) x.tid) s

/-- The handshake completes with the partner's INC (R295, R298, Table 13-7). -/
def handshakeDone (s : State) (k : Nat) (inc : BitVec 32) : State :=
  let t := s.clk.f1 + 9600
  if (linkOf s k).stored = some inc then setLink s k fun l => { l with upAfter := some (t, false) }
  else
    let s := linkEvent (discardQueued s k) k 13
    setLink s k fun l => { l with
      stored := some inc, upAfter := some (t, true), rxOpen := [], txSeq := 0, rxSeq := none, delay := 0, epsHist := [] }

/-- READY from both sides completes the handshake. -/
def readyReceived (s : State) (k : Nat) (inc : BitVec 32) : State :=
  let l := linkOf s k
  if linkState s k = .handshake ∧ l.sendReady ∧ l.upAfter.isNone then
    handshakeDone (setLink s k fun l => { l with gotReady := true, pInc := inc }) k inc
  else s

/-- Links at a frame boundary: those whose handshake is done come UP, entries of ABSENT links stop acting, the time
source is chosen (R196, R290, R297, Table 13-7). -/
def linksBoundary (s : State) : State :=
  let hyper := s.clk.systime % (flen s * 1000 * hlen s) == 0
  let s := (List.range 8).foldl (fun s k =>
    let l := linkOf s k
    match l.upAfter with
    | some (t, h) =>
      if linkState s k = .handshake ∧ t ≤ s.clk.f1 ∧ (!h || hyper) then enterUp s k else stops s k
    | none => stops s k) s
  chooseSource s
where
  stops (s : State) (k : Nat) : State :=
    if !(linkOf s k).grants then setLink s k fun l => { l with acts := false } else s

/-! ### Register checks -/

/-- LNK_CTL: EN = 0 while a promised cell is booked is BUSY. -/
def lnkCtlCheck (s : State) (k val : Nat) : Option Nat :=
  if !bit val 15 && bookedOn s (192 + k) then some stBusy else none

/-- An LNK_CTL write takes effect (R294): EN written 0 takes the link to OFF, EN written 1 out of it. -/
def lnkCtlApply (s : State) (k : Nat) (val : Word) : State :=
  let was := linkState s k
  let old := bit (dev s (0x70100 + 4 * k) 0).toNat 15
  let s := setDev s (0x70100 + 4 * k) 0 val
  let s := if bit val.toNat 15 = old then s
    else setLink s k fun l => { l with
      state := .off, lastValid := none, slotNo := none, slotSys := none, rxOpen := [], rxSeq := none, retryAt := none
      upAfter := none }
  leftUp (if linkState s k = .up then .off else was) k s

/-- LNK_DEVID and LNK_RETRY. -/
def devidCheck (s : State) : Option Nat := if (List.range 8).any fun k => linkState s k != .off then some stBusy else none
def lnkRetryCheck (val : Nat) : Option Nat := if val = 0 then some stInvalid else none

/-- Every link falls to OFF with the modes that run none; one in ERROR shows it again after them (R294, R295). A time
source that leaves UP so is chosen anew at once: there is none (R290, R292). -/
def linksOff (s : State) : State :=
  let t := (List.range 8).foldl (fun s k => setLink s k fun l => { l with
    state := if l.state = .error then .error else .off
    lastValid := none, slotNo := none, slotSys := none, rxOpen := [], rxSeq := none, retryAt := none, upAfter := none }) s
  if s.timeSrc.isSome then chooseSource t else t

/-! ### Slots received and sent (R285, R286, R289) -/

/-- A SLOT block's CRC-8 over its bits [55:8], most significant first (Table 13-3). -/
def slotCrcGood (b : BitVec 56) : Bool := crc8 (beBytes 6 (b.toNat / 256)) == b.toNat % 256

/-- A field of CTRL: bytes a to a + n − 1. -/
def ctrlField (c : BitVec 256) (a n : Nat) : Nat := fld c.toNat (8 * (a + n) - 1) (8 * a)

/-- CTRL's CRC-32 (Table 13-4). -/
def ctrlCrcGood (c : BitVec 256) : Bool := crc32 (leBytes 28 (c.toNat % 2 ^ 224)) == ctrlField c 28 4

/-- A TXSEQ that does not continue: cells were lost (R288). -/
def txSeqSeen (s : State) (k : Nat) (seq : BitVec 32) : State :=
  let l := linkOf s k
  if linkState s k ≠ .up then s
  else match l.rxSeq with
  | none => setLink s k fun l => { l with rxSeq := some seq }
  | some e =>
    if e = seq then s
    else
      let lost := (seq - e).toNat
      let s := setLink s k fun l => { l with
        rxSeq := some seq, rxOpen := [], cnt := tmod 0 l.cnt kGapCells fun n => sat 16 (n + lost) }
      linkEvent (countLink s k kCellErr) k 10

/-- A partner's CTRL is used: time offered, measurements, TXSEQ (R286, R289). -/
def ctrlSeen (s : State) (k : Nat) (c : BitVec 256) (rOwn : Int) : State :=
  let rPart := sgn 32 (ctrlField c 8 4)
  let asym := lnkAsym s k
  let eps := (rPart - rOwn + asym) / 2
  let s := setLink s k fun l => { l with
    pSys := ctrlField c 0 8, slotSys := some (ctrlField c 0 8), pInc := BitVec.ofNat 32 (ctrlField c 16 4), pGmid := ctrlField c 12 2 % 4096, pHops := ctrlField c 14 1
    delay := (rOwn + rPart + asym) / 2, eps := eps, epsHist := (eps :: l.epsHist).take 16 }
  txSeqSeen s k (BitVec.ofNat 32 (ctrlField c 24 4))

/-- A partner's SLOT and CTRL blocks arrive; `r` is the measured time of block 0 after the own slot edge, in ps. -/
def slotReceived (s : State) (k : Nat) (b : BitVec 56) (c : BitVec 256) (r : Int) : State :=
  let x := b.toNat
  let rOwn := r - (fld x 40 29 : Nat)
  match linkState s k with
  | .off | .error => s
  | was =>
    if !slotCrcGood b then s
    else if fld x 55 44 = devid s then leftUp was k (linkEvent (setLink s k fun l => { l with state := .error }) k 11)
    else
      let s := setLink s k fun l => { l with
        lastValid := some s.clk.f1, slotNo := some (fld x 28 8), pDevid := fld x 55 44, pState := fld x 43 41, rOwn := rOwn }
      if ctrlCrcGood c then ctrlSeen s k c rOwn else s

/-- HS that a link sends (Table 13-4). -/
def hsCode (s : State) (k : Nat) : Nat :=
  let l := linkOf s k
  if linkState s k ≠ .handshake then 0 else if l.sendReady then 3 else if l.sentAck then 2 else 1

/-- The SLOT block and CTRL that a link sends in a slot, with the lag of its block 0. -/
def slotSent (s : State) (k lag : Nat) : BitVec 56 × BitVec 256 :=
  let l := linkOf s k
  let t := s.clk.systime
  let body := devid s * 2 ^ 36 + (linkState s k).code * 2 ^ 33 + lag % 4096 * 2 ^ 21 + t / 1000 % 2 ^ 21
  let ctrl := t % 2 ^ 64 + wrap 32 l.rOwn * 2 ^ 64 + ownGmid s * 2 ^ 96 + ownHops s % 256 * 2 ^ 112
    + hsCode s k * 2 ^ 120 + s.flash.inc.toNat * 2 ^ 128 + l.pInc.toNat * 2 ^ 160 + l.txSeq.toNat * 2 ^ 192
  (BitVec.ofNat 56 (body * 256 + crc8 (beBytes 6 body)), BitVec.ofNat 256 (ctrl + crc32 (leBytes 28 ctrl) * 2 ^ 224))

/-- Every running link sends its slot. The lag of block 0, 0 to 2,750 ps, follows from a phase of the lanes that the
manual does not state (R285). -/
def slotsOut (s : State) : State :=
  (List.range 8).foldl (fun s k =>
    match linkState s k with
    | .off | .error => s
    | _ =>
      let (n, s) := draw s
      let (b, c) := slotSent s k ((Config.freeWord n 0).toNat % 2751)
      emit s (.linkSlot k b c)) s

/-! ### Cells received (R287, R288) -/

/-- An error in a link's cells. -/
def cellErr (s : State) (k : Nat) : State := linkEvent (countLink s k kCellErr) k 10

/-- The open transfer of a link and QID goes. -/
def dropOpen (s : State) (k q : Nat) : State :=
  setLink s k fun l => { l with rxOpen := l.rxOpen.filter (·.qid != q) }

/-- A transfer is complete: discarded, or submitted to its queue (R288). -/
def linkXfer (s : State) (k q hop : Nat) (bs : List Byte) : State :=
  let p := qidPart s q
  if timShare s k p = 0 then countLink s k kRxDeny
  else if hop + 1 = 32 ∧ 192 ≤ qEgress (qcfg s q) ∧ qEgress (qcfg s q) < 200 then linkEvent (countLink s k kHopLim) k 9
  else submit s { src := .link k (hop + 1), part := p, qid := q, legs := 0, len := bs.length - 1, limit := 0, addr := 0
                  data := bs }

/-- A cell arrives with its MAP entry. -/
def cellReceived (s : State) (k : Nat) (m : BitVec 56) (cell : List Byte) : State :=
  let x := m.toNat
  let q := fld x 46 27
  let first := bit x 54
  let last := bit x 53
  if linkState s k ≠ .up ∨ !bit x 55 ∨ cell.length ≠ 256 then s
  else
    let s := setLink s k fun l => { l with rxSeq := l.rxSeq.map (· + 1) }
    let opened := (linkOf s k).rxOpen.find? (·.qid == q)
    if (crc16 cell).toNat ≠ x % 65536 then dropOpen (cellErr s k) k q
    else
      let s := if first && opened.isSome then cellErr s k else s
      let s := dropOpen s k q
      let bs := if last then cell.take (fld x 26 19 + 1) else cell
      let here := if first then some ⟨q, fld x 51 47, bs⟩ else opened.map fun o => { o with bytes := o.bytes ++ bs }
      match here with
      | none => s
      | some o =>
        if last then linkXfer s k q o.hop o.bytes
        else setLink s k fun l => { l with rxOpen := l.rxOpen ++ [o] }

/-! ### The commands -/

/-- SLOT_BLOCK_RECEIVED. -/
def execSlotBlockReceived (k : Nat) (blk : BitVec 56) (ctrl : BitVec 256) (r : Int) (s : State) : Result :=
  .next (slotReceived s k blk ctrl r)

/-- LINK_CELL_RECEIVED. -/
def execLinkCellReceived (k : Nat) (map : BitVec 56) (cell : List Byte) (s : State) : Result :=
  .next (cellReceived s k map cell)

/-- LANE_LOCK: lock and deskew hold, and valid SLOT blocks arrive (R294). -/
def execLaneLock (k : Nat) (s : State) : Result :=
  .next (if linkState s k = .train ∧ linkHeard s k then enterHandshake s k false else s)

/-- HELLO is answered with ACK; ignored outside HANDSHAKE (R295, R297). -/
def execHello (k : Nat) (inc : BitVec 32) (s : State) : Result :=
  .next (if linkState s k = .handshake then
      maybeReady (emit (setLink s k fun l => { l with sentAck := true, pInc := inc }) (.linkHs k 2 inc)) k
    else s)

/-- ACK carrying the own INC (R295). -/
def execAck (k : Nat) (pinc : BitVec 32) (s : State) : Result :=
  .next (if linkState s k = .handshake ∧ pinc = s.flash.inc then
      maybeReady (setLink s k fun l => { l with gotAck := true }) k
    else s)

/-- READY. -/
def execReady (k : Nat) (inc : BitVec 32) (s : State) : Result := .next (readyReceived s k inc)

/-- HANDSHAKE_TIMEOUT: 1,000 slots after an ABSENT period (R295). -/
def execHandshakeTimeout (k : Nat) (s : State) : Result :=
  let l := linkOf s k
  .next (if linkState s k = .handshake ∧ l.afterAbsent ∧ l.upAfter.isNone ∧ passed s l.hsStart 600000 then
      enterAbsent s k
    else s)

/-- ABSENT. -/
def execAbsent (k : Nat) (s : State) : Result := .next (if absentDue s k then enterAbsent s k else s)

/-- RETRAIN: block lock is lost, or the partner is in RETRAIN. -/
def execRetrain (k : Nat) (s : State) : Result := .next (if linkState s k = .up then enterRetrain s k else s)

/-- LOCK_RETURN. -/
def execLockReturn (k : Nat) (s : State) : Result :=
  let l := linkOf s k
  .next (if linkState s k = .retrain ∧ (l.pState = 3 ∨ l.pState = 4) then enterUp s k else s)

/-- RETRY_TIMER. -/
def execRetryTimer (k : Nat) (s : State) : Result :=
  .next (match (linkOf s k).retryAt with
    | some t =>
      if linkState s k = .absent ∧ t ≤ s.clk.f1 then
        if linkHeard s k then enterHandshake s k true
        else setLink s k fun l => { l with retryAt := some (s.clk.f1 + lnkRetry s * 600000) }
      else s
    | none => s)

end Sys2Proof.Machine
end

