-- ==== Sys2Proof/Machine/Time.lean ====
section
/-! DEFINITION. Slot edges, frame boundaries, the time lock of a follower, reference faults (R14, R185 to R198, R213,
R292). -/

namespace Sys2Proof.Machine

/-! ### Slot edges (R185 to R190) -/

/-- ε in ps: the measurements of the time-source link, averaged over the last 16 slots (R289). -/
def epsilon (s : State) : Option Int :=
  match s.timeSrc with
  | none => none
  | some k =>
    let h := (linkOf s k).epsHist
    if h.isEmpty then none else some (h.foldl (· + ·) 0 / (h.length : Int))

/-- Length of the slot that begins, in F1 cycles (R187, R188). -/
def slotLength (s : State) : Nat :=
  if !isFollower s then 600
  else match epsilon s with
  | none => 600
  | some e => if e ≤ -834 then 601 else if 834 ≤ e then 599 else 600

/-- The source's SYSTIME for the slot that ends here, where a CTRL that could be used came in that slot (R286, R292). -/
def sourceTime (s : State) : Option Nat :=
  if isFollower s then s.timeSrc.bind fun k => (linkOf s k).slotSys else none

/-- The source's SLOTNO or SYSTIME for the slot that ends here is not the own one (R292). -/
def sourceOff (s : State) : Bool :=
  match s.timeSrc with
  | some k =>
    (linkOf s k).slotSys.any (· != s.clk.systime) || (linkOf s k).slotNo.any (· != s.clk.systime / 1000 % 2 ^ 21)
  | none => false

/-- SYSTIME of the coming slot edge: a load (R190), a follower's step while RUN is 0 (R292), or 1,000 ns more. A step
needs the source's whole SYSTIME: a slot whose CTRL cannot be used gives none (DESIGN CHOICE, log 116). -/
def nextSystime (s : State) : Nat :=
  match s.clk.ldsec with
  | some n => n * 1000000000 % 2 ^ 64
  | none =>
    match sourceTime s with
    | some t => if runActive s then (s.clk.systime + 1000) % 2 ^ 64 else (t + 1000) % 2 ^ 64
    | none => (s.clk.systime + 1000) % 2 ^ 64

/-- The time lock of a follower at a slot edge: OOS past 100 ns or a whole slot, and the run of slots under 10 ns
(R192, R292). -/
def lockStep (s : State) : State :=
  if !isFollower s then s
  else match epsilon s with
  | none => { s with clk := { s.clk with streak := 0 } }
  | some e =>
    if e.natAbs > 100000 || (runActive s && sourceOff s) then setOos s
    else { s with clk := { s.clk with streak := if e.natAbs < 10000 then s.clk.streak + 1 else 0 } }

/-- Token buckets gain RATE thousandths, up to BURST tokens (R213). -/
def fillBuckets (s : State) : State :=
  { s with qe := { s.qe with queues := s.qe.queues.map fun e =>
      let c := e.2.cfg.toNat
      (e.1, if qClass c = 2 then { e.2 with tokens := min (e.2.tokens + qRate c) (qBurst c * 1000) } else e.2) } }

/-- A new host capacity applies (R254). -/
def hcapStep (s : State) : State :=
  let n := hcapOf s.host.rate s.host.width
  if n = s.host.hcap then s else raiseEv { s with host := { s.host with hcap := n } } 1618

/-- The slot edge itself: its SYSTIME, and whether it is a frame boundary. What the links heard in the slot that ends
has been used. -/
def slotTurn (s : State) : State :=
  let t := nextSystime s
  { s with
    clk := { s.clk with systime := t, k := 0, ldsec := none, boundaryDue := isBoundary s t }
    link := s.link.map fun e => (e.1, { e.2 with slotNo := none, slotSys := none }) }

/-- The slot that begins has its length, which counts in the frame that it belongs to (R188, R196). -/
def beginSlot (s : State) : State :=
  let n := slotLength s
  { s with clk := { s.clk with
      slotLen := n
      longLive := s.clk.longLive + (if n = 601 then 1 else 0)
      shortLive := s.clk.shortLive + (if n = 599 then 1 else 0) } }

/-- What the queue engine and the links do as a slot begins. -/
def slotWork (s : State) : State :=
  let s := hcapStep (fillBuckets { s with qe := { s.qe with used := [], reads := 0 } })
  let s := { s with qe := { s.qe with xfers := slotFacts s s.clk.systime } }
  slotsOut (fspPositions (fspPlans s))

/-- A slot begins: after the three steps of a frame boundary on its edge (R196). -/
def slotStart (s : State) : State := slotWork (beginSlot s)

/-- A slot edge is due: the running slot has had all its F1 cycles, and the boundary at its start has been carried
out. -/
def slotDue (s : State) : Bool :=
  s.clk.started && s.mode.timeRuns && !s.clk.boundaryDue && decide (s.clk.slotLen ≤ s.clk.k)

/-! ### Frame boundaries (R196, R197) -/

/-- Queue counters latch (R236). -/
def latchQueues (s : State) : State :=
  { s with qe := { s.qe with
      queues := s.qe.queues.map fun e => (e.1, { e.2 with lat := e.2.cnt, cnt := {} })
      lateLat := s.qe.lateCnt, lateCnt := []
      heldLat := (List.range 16).foldl (fun t p => tset 0 t p (promisedHeld s p)) [] } }

/-- Segment, link, bank, error, leap and journal counters latch (R125, R188, R282, R299, R318). -/
def latchOthers (s : State) : State :=
  { s with
    seg := s.seg.map fun e => (e.1, { e.2 with lat := e.2.cnt, cnt := [] })
    link := s.link.map fun e => (e.1, { e.2 with lat := e.2.cnt, cnt := [] })
    bank := { s.bank with conflictLat := s.bank.conflict, conflict := [] }
    dram := { s.dram with errLat := s.dram.errCnt, errCnt := [] }
    clk := { s.clk with longLat := s.clk.longLive, shortLat := s.clk.shortLive, longLive := 0, shortLive := 0 }
    jrn := { s.jrn with lat := s.jrn.live, live := {}, latOldest := (s.jrn.ring.head?.map (·.seq)).getD 0 } }

/-- Entries of a table that have gone back to their default leave it. -/
def tidy {β : Type} [DecidableEq β] (d : β) (t : Tbl β) : Tbl β := t.filter fun e => e.2 != d

/-- Step 1: every statistics counter is latched and restarts (R196). -/
def latchStep (s : State) : State :=
  let s := latchOthers (latchQueues s)
  { s with seg := tidy {} s.seg, link := tidy {} s.link, qe := { s.qe with queues := tidy {} s.qe.queues } }

/-- A framed write applies (R41): TIM_CTL, or a bank's wheel. -/
def applyFramed (s : State) (w : FramedWrite) : State :=
  match findReg w.off with
  | some (r, i, _) => setStored s r i w.view w.val
  | none => s

/-- A role other than follower holds no lock (R192). -/
def roleStep (s : State) : State :=
  if isFollower s then s else { s with clk := { s.clk with oos := false, lock := false, streak := 0 } }

/-- Step 2: every framed write accepted before it applies (R41). -/
def framedStep (s : State) : State := roleStep (s.framed.foldl applyFramed { s with framed := [] })

/-- The three steps of a frame boundary, its events, and then the slot that begins with it (R196, R197). -/
def frameBoundary (s : State) : State :=
  let s := { s with clk := { s.clk with boundaryDue := false } }
  let s := swapStep (flipStep (framedStep (latchStep s)))
  let s := raiseEv (linksBoundary s) 1777
  slotStart (if frameRaw s s.clk.systime % hlen s = 0 then raiseEv s 1778 else s)

/-! ### Register checks -/

/-- TIM_CTL: ROLE 0b11 INVALID; a change of ROLE with RUN, or a clear of RUN with promises outstanding, BUSY (R198). -/
def timCtlCheck (s : State) (val : Nat) : Option Nat :=
  let was := timCtlNext s
  if fld val 14 13 = 3 then some stInvalid
  else if (fld val 14 13 != fld was 14 13 && runAny s) || (bit was 15 && !bit val 15 && promisesOut s) then some stBusy
  else none

/-- TIM_FLEN and TIM_HLEN (R194). -/
def flenCheck (s : State) (val : Nat) : Option Nat :=
  if val = 0 then some stInvalid else if lengthBusy s then some stBusy else none
def hlenCheck (s : State) : Option Nat := if lengthBusy s then some stBusy else none

/-- A frame or hyperframe length takes effect (R194). -/
def lengthApply (s : State) (off : Nat) (d val : Word) : State := clearActive (setDev s off d val)

/-- TIM_LDSEC (R190): the role is the active one. -/
def ldsecCheck (s : State) : Option Nat :=
  if fld (timCtl s) 14 13 = 2 then some stInvalid else if runAny s then some stBusy else none

/-! ### The commands -/

/-- SLOT_EDGE: promised cells of the slot that ends which no command has put on their link go out first. The slot that
begins starts with it, or, where the edge is a frame boundary, after the boundary's three steps. -/
def execSlotEdge (s : State) : Result :=
  .next (if slotDue s then
      let t := slotTurn (lockStep (linksRest s))
      if t.clk.boundaryDue then t else slotStart t
    else s)

/-- OOS_CLEAR: 1,000 consecutive slots under 10 ns (R192); LOCK sets with it (R292). -/
def execOosClear (s : State) : Result :=
  .next (if isFollower s ∧ s.clk.oos ∧ s.timeSrc.isSome ∧ 1000 ≤ s.clk.streak then
      { s with clk := { s.clk with oos := false, lock := true } }
    else s)

/-- FRAME_BOUNDARY. -/
def execFrameBoundary (s : State) : Result := .next (if s.clk.boundaryDue then frameBoundary s else s)

/-- REF_FAULT (R14, R191). -/
def execRefFault (s : State) (absent : Bool := false) : Result :=
  .next (if s.clk.started then
      raiseEv { s with clk := { s.clk with refFault := true, refSeen := true, refAbsent := absent } } 1776
    else s)

/-- REF_RELOCK (R14). -/
def execRefRelock (s : State) : Result := .next { s with clk := { s.clk with refFault := false, refAbsent := false } }

end Sys2Proof.Machine
end

