-- ==== Sys2Proof/Machine/Pins.lean ====
section
/-! DEFINITION. Pins, pin functions, timed I/O, serial units, pattern engines and the event controller (chapter 16). -/

namespace Sys2Proof.Machine

/-! ### Registers of a pin -/

/-- PIN_CFG, PIN_AUX, and the bits of PIN_OUT and PIN_OE, as written. -/
def pinCfgReg (s : State) (p : Nat) : Word := dev s (0xA0400 + 4 * p) 0
def pinAuxReg (s : State) (p : Nat) : Word := dev s (0xA0800 + 4 * p) 0
def pinLatch (s : State) (p : Nat) : Bool := (dev s (0xA0C00 + 4 * (p / 16)) 0).getLsbD (p % 16)
def pinEnable (s : State) (p : Nat) : Bool := (dev s (0xA0D00 + 4 * (p / 16)) 0).getLsbD (p % 16)

/-- FUNC of a configuration word. -/
def cfgFunc (c : Word) : Nat := c.toNat / 4096

/-- CLASS of a pin group, PIN_VSTAT (Table 16-1). -/
def groupClass (s : State) (g : Nat) : Nat := fld s.pins.vstat.toNat (2 * g + 1) (2 * g)

/-- A group within one of the two classes. -/
def groupUp (s : State) (g : Nat) : Bool := groupClass s g == 1 || groupClass s g == 2

/-- The pin's detectors work: F1 runs, its group is in a class, its partition is enabled (R24, R344). -/
def pinLive (s : State) (p : Nat) : Bool :=
  s.clk.started && s.mode.busUp && s.mode != .m11 && groupUp s (p / 16) && enabled s (pinPart s p)

/-! ### Serial units (R351) -/

/-- A serial unit. -/
def serialOf (s : State) (u : Nat) : Serial := tget {} s.pins.serial u

/-- s with a serial unit changed. -/
def setSerial (s : State) (u : Nat) (x : Serial) : State :=
  { s with pins := { s.pins with serial := tset {} s.pins.serial u x } }

/-- PIN_SCTL. -/
def sctl (s : State) (u : Nat) : Nat := (dev s (0xA1000 + 16 * u) 0).toNat

/-- A unit runs. -/
def serialOn (s : State) (u : Nat) : Bool := bit (sctl s u) 15

/-- BUSY: a byte is being sent or waits to be. -/
def serialBusy (s : State) (u : Nat) : Bool := serialOn s u && !(serialOf s u).tx.isEmpty

/-- PIN_SSTAT as it reads (Table 16-5): RXEMPTY reads 0 while EN is 0, as its reset value has it. -/
def sstat (s : State) (u : Nat) : Word :=
  let x := serialOf s u
  BitVec.ofNat 16 (place (x.tx.length ≥ 16) 15 + place x.tx.isEmpty 14 + place (serialOn s u && x.rx.isEmpty) 13 + place x.rxovf 12
    + place x.err 11 + place (serialBusy s u) 10 + x.rx.length)

/-- The roles of a unit's kind that take input: RX, CTS_N; MISO; SCL, SDA. -/
def inputRole (u role : Nat) : Bool :=
  if u < 16 then role == 1 || role == 3 else if u < 24 then role == 2 else decide (role < 2)

/-- The roles of Table 16-3. -/
def roleValid (u role : Nat) : Bool := if u < 16 then decide (role < 4) else if u < 24 then decide (role < 7) else decide (role < 2)

/-- Value and enable that an enabled unit gives a role between bytes: idle levels, CS while a byte or a held transfer
is in hand, RTS_N from the room of the receive FIFO; I2C lines are released. -/
def serialDrive (s : State) (u role : Nat) : Bool × Bool :=
  let x := serialOf s u
  let c := sctl s u
  if u < 16 then
    match role with
    | 0 => (true, true)
    | 2 => (if bit c 11 then decide (x.rx.length ≥ 16) else Config.freeBit x.free 0, true)
    | _ => (false, false)
  else if u < 24 then
    match role with
    | 0 => (bit c 9, true)
    | 1 => (Config.freeBit x.free 1, true)
    | 2 => (false, false)
    | n => (!(fld c 11 10 == n - 3 && (x.csHeld || !x.tx.isEmpty)), true)
  else (true, true)

/-! ### What a pad drives (Table 16-2, R347, R369) -/

/-- A pin behaves as ODRAIN = 1. -/
def openDrain (x : Pin) : Bool := bit x.cfg.toNat 2 || x.func == 5

/-- Value and enable that the function in force gives its pad. -/
def funcDrive (s : State) (p : Nat) : Bool × Bool :=
  let x := pinOf s p
  match x.kept with
  | some k => k
  | none =>
    let (v, e) := match x.func with
      | 0 => (pinLatch s p, pinEnable s p)
      | 1 => (x5Level s p, x5Level s (256 + p))
      | 3 | 4 | 5 => serialDrive s (x.aux.toNat % 32) (fld x.aux.toNat 10 8)
      | 7 => (false, false)
      | 8 => (evPulse s (x.aux.toNat % 2048), true)
      | _ => (x.out, x.oe)
    (v, e && !(openDrain x && v))

/-- The modes that accept EXTEST (Table 2-6). -/
def extestMode (s : State) : Bool := s.mode == .m2 || s.mode == .m4 || s.mode == .m10

/-- Value, enable and pull at the pad: pad hold, an unpowered group, EXTEST, the modes and a disabled partition, which
leave the pad high-Z without pull, come before the pin's function (R24, R51, R344, R369, Table 1-3). -/
def padDrive (s : State) (p : Nat) : Drive :=
  if bit s.pwr.held.toNat (p / 16) then tget {} s.pwr.padLatch p
  else if !groupUp s (p / 16) then {}
  else if extestMode s && s.tap.ir == 0 then
    let c := tget (false, false) s.tap.cells p
    { val := c.1, en := c.2 }
  else if !(s.mode.inRun || s.mode == .m10) || !enabled s (pinPart s p) then {}
  else
    let d := (pinOf s p).held.getD (funcDrive s p)
    { val := d.1, en := d.2, pull := fld (pinOf s p).cfg.toNat 7 6 }

/-! ### Detectors (R350, R352, R354) -/

/-- The level source of a pin under function 0 or 7 with a level mode. -/
def pinSource (s : State) (p : Nat) : Bool :=
  let x := pinOf s p
  (x.func == 0 || x.func == 7) && pinLive s p
    && (match fld x.cfg.toNat 11 9 with
      | 4 => padLevel s p
      | 5 => !padLevel s p
      | _ => false)

/-- s with a pin's level source as its level stands. -/
def pinSettle (s : State) (p : Nat) : State :=
  if pinSource s p != s.ev.active.contains (1232 + p) then levelEv s (1232 + p) (pinSource s p) else s

/-- A change of a pin's sampled level under the function in force. -/
def pinDetect (s : State) (p : Nat) (new : Bool) : State :=
  let x := pinOf s p
  let hit := fun m => m == 3 || (m == 1 && new) || (m == 2 && !new)
  if !pinLive s p then s
  else if x.func = 0 ∨ x.func = 7 then
    if hit (fld x.cfg.toNat 11 9) then raiseEv s (1232 + p) else pinSettle s p
  else if x.func = 2 ∧ hit (x.aux.toNat % 4) then
    if x.inFifo.length ≥ 4 then setPin s p { x with ovf := true }
    else raiseEv (setPin s p { x with inFifo := x.inFifo ++ [(sysNow s, new)] }) (1232 + p)
  else s

/-- The words of a pattern engine. -/
def engineWord (s : State) (k w : Nat) : Nat := (nthD 0 (tget [] s.pins.engine k) w).toNat

/-- An engine is enabled; there are none under an ET7 personality (R31). -/
def engineOn (s : State) (k : Nat) : Bool :=
  s.fab.pers == 0 && bit (engineWord s k 20) 15 && enabled s (unitPart s (32 + k))

/-- The pin of an engine's bit. -/
def enginePin (s : State) (k i : Nat) : Nat := byteSel (engineWord s k (i / 2)) i

/-- An engine's match (R354). -/
def engineMatch (s : State) (k : Nat) : Bool :=
  engineOn s k && s.clk.started && s.mode.busUp && s.mode != .m11 && (List.range 32).all fun i =>
    !(engineWord s k (16 + i / 16)).testBit (i % 16)
      || padLevel s (enginePin s k i) == (engineWord s k (18 + i / 16)).testBit (i % 16)

/-- One engine after a change of levels or of its words. -/
def engineStep (s : State) (k : Nat) : State :=
  let m := engineMatch s k
  let was := s.pins.matching.contains k
  let s := { s with pins := { s.pins with matching := if m then sins k s.pins.matching else sdel k s.pins.matching } }
  if bit (engineWord s k 20) 14 then (if m != s.ev.active.contains (1488 + k) then levelEv s (1488 + k) m else s)
  else
    let s := if s.ev.active.contains (1488 + k) then levelEv s (1488 + k) false else s
    if m && !was then raiseEv s (1488 + k) else s

/-- Every engine that has words. -/
def enginesStep (s : State) : State := (s.pins.engine.map (·.1)).foldl engineStep s

/-- Level sources and matches as pads, owners and words stand. -/
def pinsSettle (s : State) : State := enginesStep ((s.pins.pin.map (·.1)).foldl pinSettle s)

/-- Pins and serial units of a partition whose enable changes: FIFOs and their flags are at reset (R24). -/
def pinsSwitch (s : State) (p : Nat) : State :=
  let pin := s.pins.pin.foldl (fun t e =>
    if pinPart s e.1 = p then tset {} t e.1 { e.2 with outFifo := [], inFifo := [], tlate := false, ovf := false } else t)
    s.pins.pin
  let serial := s.pins.serial.foldl (fun t e =>
    if unitPart s e.1 = p then tset {} t e.1 { free := e.2.free } else t) s.pins.serial
  pinsSettle { s with pins := { s.pins with pin := pin, serial := serial } }

/-- A pad's level changes. -/
def pinLevelChange (s : State) (p : Nat) (level : Bool) : State :=
  let old := padLevel s p
  let s := setPin s p { pinOf s p with level := level }
  if padLevel s p == old then s
  else enginesStep (pinDetect (setPin s p { pinOf s p with edge := some (padLevel s p) }) p (padLevel s p))

/-! ### Register checks and effects -/

/-- The view's bits of a group of pins (Table 16-4). -/
def ownMask (s : State) (v : View) (g : Nat) : Nat :=
  total ((List.range 16).map fun i => place (pinPart s (16 * g + i) == viewPart s v) i)

/-- A PIN_OUT, PIN_SET, PIN_CLR, PIN_TGL or PIN_OE word takes the view's bits: old word, written word, mask. -/
def gpioSet (old val m : Nat) : Word := BitVec.ofNat 16 (Nat.lor old (Nat.land val m))
def gpioClr (old val m : Nat) : Word := BitVec.ofNat 16 (Nat.xor old (Nat.land old (Nat.land val m)))
def gpioTgl (old val m : Nat) : Word := BitVec.ofNat 16 (Nat.xor old (Nat.land val m))
def gpioPut (old val m : Nat) : Word :=
  BitVec.ofNat 16 (Nat.lor (Nat.xor old (Nat.land old m)) (Nat.land val m))

/-- s after a GPIO write of group g: `which` 0 OUT, 1 SET, 2 CLR, 3 TGL, 4 OE. -/
def gpioApply (s : State) (v : View) (which g : Nat) (val : Word) : State :=
  let m := ownMask s v g
  let off := if which = 4 then 0xA0D00 + 4 * g else 0xA0C00 + 4 * g
  let old := (dev s off 0).toNat
  setDev s off 0 (match which with
    | 1 => gpioSet old val.toNat m
    | 2 => gpioClr old val.toNat m
    | 3 => gpioTgl old val.toNat m
    | _ => gpioPut old val.toNat m)

/-- Why a pair PIN_CFG, PIN_AUX of a pin is refused (R346), in the order of R430. -/
def pinPairCheck (s : State) (p cfg aux : Nat) : Option Nat :=
  let f := cfg / 4096
  let serial := decide (3 ≤ f ∧ f ≤ 5)
  let u := aux % 32
  let role := fld aux 10 8
  let kind := if u < 16 then 3 else if u < 24 then 4 else 5
  let same := (List.range 256).any fun q => q != p && (let c := cfgFunc (pinCfgReg s q); decide (3 ≤ c ∧ c ≤ 5))
    && (pinAuxReg s q).toNat % 32 == u && fld (pinAuxReg s q).toNat 10 8 == role
  if (serial && unitPart s u != pinPart s p) || (f == 8 && evtOwner s (aux % 2048) != pinPart s p) then some stDenied
  else if decide (f > 8) || decide (fld cfg 11 9 ≥ 6) || fld cfg 7 6 == 3 || cfg % 4 != 0
      || (f == 2 && decide (aux ≥ 4))
      || (serial && (kind != f || !roleValid u role || fld aux 15 11 != 0 || fld aux 7 5 != 0))
      || (f == 6 && decide (aux ≥ 64)) || (f == 8 && decide (aux ≥ 2048))
      || (serial && inputRole u role && same) then some stInvalid
  else none

/-- The check of a write to PIN_CFG (`aux` false) or PIN_AUX. -/
def pinCfgCheck (s : State) (p : Nat) (aux : Bool) (val : Nat) : Option Nat :=
  if aux then pinPairCheck s p (pinCfgReg s p).toNat val else pinPairCheck s p val (pinAuxReg s p).toNat

/-- An accepted write schedules the switch edge: the first F8 edge at least one F1 cycle after this CLK_M cycle
(R347). -/
def pinCfgApply (s : State) (p : Nat) (aux : Bool) (val : Word) : State :=
  let s := setDev s (if aux then 0xA0800 + 4 * p else 0xA0400 + 4 * p) 0 val
  setPin s p { pinOf s p with switchAfter := some (s.clk.f1 + 3 - s.clk.f1 % 2) }

/-- A fresh owner word changes the owner of one of its four places, where a test holds. -/
def ownerClash (old new : Nat) (test : Nat → Bool) : Bool :=
  (List.range 4).any fun j => fld old (4 * j + 3) (4 * j) != fld new (4 * j + 3) (4 * j) && test j

/-- PIN_OWN (R345). -/
def pinOwnCheck (s : State) (k val : Nat) : Option Nat :=
  let busy := fun p => cfgFunc (pinCfgReg s p) != 0 || pinEnable s p
    || (s.pins.engine.map (·.1)).any fun e => engineOn s e && (List.range 32).any fun i => enginePin s e i == p
  if ownerClash (dev s (0xA0000 + 4 * k) 0).toNat val fun j => busy (4 * k + j) then some stBusy else none

/-- PIN_UOWN (R351): a unit that a pin selects, or an enabled engine, keeps its owner. -/
def pinUownCheck (s : State) (k val : Nat) : Option Nat :=
  let busy := fun u =>
    if u < 32 then (List.range 256).any fun q =>
      (let c := cfgFunc (pinCfgReg s q); decide (3 ≤ c ∧ c ≤ 5)) && (pinAuxReg s q).toNat % 32 == u
    else engineOn s (u - 32)
  if ownerClash (dev s (0xA0100 + 4 * k) 0).toNat val fun j => busy (4 * k + j) then some stBusy else none

/-- PIN_TSEL (R349). -/
def tselCheck (s : State) (v : View) (val : Nat) : Option Nat :=
  let p := val % 256
  if pinPart s p ≠ viewPart s v then some stDenied
  else if cfgFunc (pinCfgReg s p) ≠ 2 then some stInvalid
  else if (pinOf s p).outFifo.length ≥ 4 then some stBusy
  else none

/-- A timed edge joins its pin's FIFO; one that is due already when it reaches the head sets TLATE (R349). -/
def tselApply (s : State) (v : View) (val : Nat) : State :=
  let p := val % 256
  let x := pinOf s p
  let t := wordsVal ((List.range 4).map fun k => vw s v (0xA0E00 + 4 * k) 0)
  setPin s p { x with
    headAt := if x.outFifo.isEmpty then s.clk.f1 else x.headAt
    outFifo := x.outFifo ++ [(t, bit val 15, bit val 14)]
    tlate := x.tlate || (x.outFifo.isEmpty && decide (t ≤ sysNow s)) }

/-- PIN_TPOP (R350): a pin of another partition is left alone. -/
def tpopApply (s : State) (v : View) (val : Nat) : State :=
  let p := val % 256
  if pinPart s p = viewPart s v then setPin s p { pinOf s p with inFifo := (pinOf s p).inFifo.drop 1 } else s

/-- PIN_PSEL (R354). -/
def pselCheck (s : State) (v : View) (val : Nat) : Option Nat :=
  let ws := (List.range 21).map fun k => (vw s v (0xA0E20 + 4 * k) 0).toNat
  let p := viewPart s v
  if unitPart s (32 + val % 32) ≠ p ∨ (List.range 32).any fun i => pinPart s (byteSel (nthD 0 ws (i / 2)) i) != p then
    some stDenied
  else if nthD 0 ws 20 % 16384 ≠ 0 then some stInvalid
  else none

/-- A pattern engine takes its words. -/
def pselApply (s : State) (v : View) (val : Nat) : State :=
  let ws := (List.range 21).map fun k => vw s v (0xA0E20 + 4 * k) 0
  let k := val % 32
  engineStep { s with pins := { s.pins with engine := tset [] s.pins.engine k (if ws.all (· == 0) then [] else ws) } } k

/-- PIN_SCTL (R351). -/
def sctlCheck (s : State) (u val : Nat) : Option Nat :=
  if fld val 9 8 = 3 ∧ (u < 16 ∨ 24 ≤ u) then some stInvalid
  else if serialBusy s u && fld val 11 8 != fld (sctl s u) 11 8 then some stBusy
  else none

/-- Pins whose function in force is a serial unit's. -/
def unitPins (s : State) (u : Nat) : List Nat :=
  (s.pins.pin.filter fun e => decide (3 ≤ e.2.func ∧ e.2.func ≤ 5) && e.2.aux.toNat % 32 == u).map (·.1)

/-- Pins of a unit in a role. -/
def rolePins (s : State) (u : Nat) (roles : List Nat) : List Nat :=
  (unitPins s u).filter fun p => roles.contains (fld (pinOf s p).aux.toNat 10 8)

/-- Roles whose pins report the receive side and the transmit side of a unit (R352). -/
def rxRoles (u : Nat) : List Nat := if u < 16 then [1] else if u < 24 then [2] else [1]
def txRoles (u : Nat) : List Nat := if u < 16 then [0] else [0]

/-- A unit reports on its pins of some roles. -/
def raiseRoles (s : State) (u : Nat) (roles : List Nat) : State :=
  (rolePins s u roles).foldl (fun s p => if pinLive s p then raiseEv s (1232 + p) else s) s

/-- PIN_SCTL takes effect: EN = 0 empties both FIFOs and leaves the pads as they are (R347, R351); EN = 1 drives. -/
def sctlApply (s : State) (u : Nat) (val : Word) : State :=
  let was := serialOn s u
  let on := bit val.toNat 15
  let ps := unitPins s u
  if on then
    let (n, s) := if was then (0, s) else draw s
    let x := serialOf s u
    let s := setSerial (setDev s (0xA1000 + 16 * u) 0 val) u (if was then x else { x with free := n })
    ps.foldl (fun s p => setPin s p { pinOf s p with kept := none }) s
  else
    let keep := fun (t : State) (p : Nat) => setPin t p { pinOf t p with kept := some (funcDrive s p) }
    let x := serialOf s u
    let empty := x.tx.isEmpty
    let t := ps.foldl keep s
    let t := setSerial (setDev t (0xA1000 + 16 * u) 0 val) u { x with tx := [], rx := [], csHeld := false }
    if empty then t else raiseRoles t u (txRoles u)

/-- A PIN_SDAT write (R351). -/
def sdatCheck (s : State) (u : Nat) : Option Nat := if (serialOf s u).tx.length ≥ 16 then some stBusy else none
def sdatApply (s : State) (u : Nat) (val : Word) : State :=
  setSerial s u { serialOf s u with tx := (serialOf s u).tx ++ [val] }

/-- What a PIN_SDAT read returns, and the unit after it. -/
def sdatRead (s : State) (u : Nat) : Word × State :=
  match (serialOf s u).rx with
  | [] => (0, s)
  | b :: bs => (BitVec.ofNat 16 (0x8000 + b.toNat), setSerial s u { serialOf s u with rx := bs })

/-! ### Event routes (R355 to R357) -/

/-- EVT_RTE. -/
def evtRte (s : State) (n : Nat) : Nat := (dev s (0xB1000 + 4 * n) (if 1808 ≤ n ∧ n < 1872 then 0xB000 else 0)).toNat

/-- EVT_RTE (R356), in the order DENIED, INVALID (R430). -/
def evtRteCheck (s : State) (n val : Nat) : Option Nat :=
  let own := evtOwner s n
  let dest := fld val 14 12
  let t := val % 4096
  if (dest = 2 ∧ t < 4 ∧ hartPart s t ≠ own) ∨ (dest = 4 ∧ t < 640 ∧ evtOwner s t ≠ own) then some stDenied
  else if dest > 4 ∨ (dest = 3 ∧ !(1808 ≤ n ∧ n < 1872)) ∨ (dest = 2 ∧ t > 3) ∨ (dest = 4 ∧ t ≥ 640)
      ∨ (dest = 1 ∧ (t ≥ msixSize own ∨ (own ≠ 0 ∧ own > s.host.numVFs))) then some stInvalid
  else none

/-- EVT_OWN (R355). -/
def evtOwnCheck (s : State) (k val : Nat) : Option Nat :=
  if ownerClash (dev s (0xB0000 + 4 * k) 0).toNat val fun j =>
      (evtOwnFixed s (4 * k + j)).isNone && bit (evtRte s (4 * k + j)) 15 then some stBusy
  else none

/-- EVT_OWN as it reads: fixed owners read their value. -/
def evtOwnRead (s : State) (k : Nat) : Word :=
  BitVec.ofNat 16 (total ((List.range 4).map fun j => evtOwner s (4 * k + j) * 2 ^ (4 * j)))

/-- A written route counts the bounds of a pending source anew (R357). -/
def evtRteApply (s : State) (n : Nat) : State :=
  if s.ev.pending.contains n then { s with ev := { s.ev with since := tset 0 s.ev.since n s.clk.f1 } } else s

/-- EVT_CLR (R357). -/
def evtClrApply (s : State) (v : View) (val : Nat) : State :=
  if evtOwner s (val % 2048) = viewPart s v then clearEv s (val % 2048) else s

/-- The sources enabled and routed to a hart that are pending, lowest first. -/
def hartSources (s : State) (h : Nat) : List Nat :=
  s.ev.pending.filter fun n => bit (evtRte s n) 15 && fld (evtRte s n) 14 12 == 2 && evtRte s n % 4096 == h

/-- MEIP of a hart (R357). -/
def meip (s : State) (h : Nat) : Bool := !(hartSources s h).isEmpty

/-- A read of EVT_CLAIM. -/
def claimRead (s : State) (h : Nat) : Word × State :=
  match hartSources s h with
  | [] => (0, s)
  | n :: _ => (BitVec.ofNat 16 (0x8000 + n), clearEv s n)

/-- The delivery of a pending bit under its route as it stands (R357). -/
def deliverEvent (s : State) (n : Nat) : State :=
  let r := evtRte s n
  if !s.ev.pending.contains n || !bit r 15 then s
  else match fld r 14 12 with
    | 1 => clearEv (sendMsix s (evtOwner s n) (r % 4096)) n
    | 3 => clearEv (emit s (.toChaty n)) n
    | 4 =>
      let pulse := (r % 4096, max (tget 0 s.ev.since n + 4) (s.clk.f1 + 1))
      clearEv { s with ev := { s.ev with
        pulses := if s.ev.pulses.contains pulse then s.ev.pulses else s.ev.pulses ++ [pulse] } } n
    | _ => s

/-- The pending sources routed to fabric lanes whose pulse is to begin with the coming F1 edge are delivered (R357). -/
def lanesDue (s : State) : State :=
  (s.ev.pending.filter fun n => bit (evtRte s n) 15 && fld (evtRte s n) 14 12 == 4
    && decide (tget 0 s.ev.since n + 4 ≤ s.clk.f1 + 1)).foldl deliverEvent s

/-! ### The commands -/

/-- The switch edge of a pin (R347). -/
def switchPin (s : State) (p : Nat) : State :=
  let x := pinOf s p
  let was := funcDrive s p
  let cfg := pinCfgReg s p
  let aux := pinAuxReg s p
  let f := cfgFunc cfg
  let waits := f == 2 || (decide (3 ≤ f ∧ f ≤ 5) && !serialOn s (aux.toNat % 32))
  let v := f == 6 && probePad s p (aux.toNat % 64)
  pinSettle (setPin s p { x with
    func := f, cfg := cfg, aux := aux, switchAfter := none
    kept := if waits then some was else none
    out := v, oe := f == 6
    outFifo := if x.func = 2 then [] else x.outFifo }) p

/-- SWITCH_EDGE: at an F8 edge, once the wait is over. -/
def execSwitchEdge (p : Nat) (s : State) : Result :=
  .next (match (pinOf s p).switchAfter with
    | some a => if s.clk.started && s.mode.busUp && s.clk.f1 % 8 == 0 && decide (a ≤ s.clk.f1) then switchPin s p else s
    | none => s)

/-- TIMED_EDGE_APPLY: the head of a pin's output FIFO applies once its time has come, at the earliest at the F1 edge after
the one at which it became the head (R349). -/
def execTimedEdgeApply (p : Nat) (s : State) : Result :=
  let x := pinOf s p
  .next (match x.outFifo with
    | (t, level, oe) :: rest =>
      if x.func = 2 ∧ t ≤ sysNow s ∧ x.headAt < s.clk.f1 ∧ pinLive s p then
        let late := match rest with
          | (u, _, _) :: _ => decide (u ≤ sysNow s)
          | [] => false
        let s := setPin s p { x with
          outFifo := rest, headAt := s.clk.f1, out := level, oe := oe, kept := none, tlate := x.tlate || late }
        if rest.isEmpty then raiseEv s (1232 + p) else s
      else s
    | [] => s)

/-- PIN_LEVEL_CHANGE: the pad input register samples a level (R350, R352, R354). -/
def execPinLevelChange (p : Nat) (level : Bool) (s : State) : Result :=
  .next (if p < 256 then pinLevelChange s p level else s)

/-- SERIAL_BYTE_RECEIVED: a unit receives a byte, with a parity or framing error where `err` says so (R351). -/
def execSerialByteReceived (u : Nat) (byte : Byte) (err : Bool) (s : State) : Result :=
  .next (if u ≥ 32 ∨ !serialOn s u ∨ !enabled s (unitPart s u) then s
    else
      let x := serialOf s u
      let full := decide (x.rx.length ≥ 16)
      let s := setSerial s u { x with
        rx := if full then x.rx else x.rx ++ [byte], rxovf := x.rxovf || full, err := x.err || err }
      if (x.rx.isEmpty && !full) || (err && !x.err) then raiseRoles s u (rxRoles u) else s)

/-- A UART with FLOW sends only while its CTS_N pad is low; one without a CTS_N pin is not held up (DEDUCED, log 98). -/
def clearToSend (s : State) (u : Nat) : Bool :=
  decide (16 ≤ u) || !bit (sctl s u) 11 || (rolePins s u [3]).all fun p => !padLevel s p

/-- SERIAL_BYTE_SENT: a unit has sent the oldest byte of its transmit FIFO; `err` tells of a NACK or a lost
arbitration (R351). -/
def execSerialByteSent (u : Nat) (err : Bool) (s : State) : Result :=
  .next (if u ≥ 32 ∨ !serialOn s u ∨ !enabled s (unitPart s u) ∨ !clearToSend s u then s
    else
      let x := serialOf s u
      match x.tx with
      | [] => s
      | w :: ws =>
        let spi := decide (16 ≤ u ∧ u < 24)
        let s := setSerial s u { x with tx := ws, csHeld := spi && !bit w.toNat 8, err := x.err || err }
        let s := emit s (.serialByte u w)
        let s := if ws.isEmpty then raiseRoles s u (txRoles u) else s
        if err && !x.err then raiseRoles s u (rxRoles u) else s)

/-- The function that owns a pin may raise its source (R352). -/
def pinRaises (s : State) (p : Nat) : Bool :=
  let x := pinOf s p
  let u := x.aux.toNat % 32
  pinLive s p && (match x.func with
    | 0 | 7 => decide (1 ≤ fld x.cfg.toNat 11 9 ∧ fld x.cfg.toNat 11 9 ≤ 5)
    | 2 => true
    | 3 | 4 | 5 => (rxRoles u ++ txRoles u).contains (fld x.aux.toNat 10 8)
    | _ => false)

/-- A source may be raised as the state stands: a pin's by the function that owns the pin, a pattern engine's while it is
enabled (R352, R354). -/
def mayRaise (s : State) (src : Nat) : Bool :=
  if 1232 ≤ src ∧ src < 1488 then pinRaises s (src - 1232)
  else if 1488 ≤ src ∧ src < 1520 then engineOn s (src - 1488)
  else true

/-- EVENT_RAISE: a source is raised (R357). -/
def execEventRaise (src : Nat) (s : State) : Result := .next (if mayRaise s src then raiseEv s src else s)

/-- EVENT_DELIVERY: an enabled pending bit is delivered (R357). -/
def execEventDelivery (src : Nat) (s : State) : Result := .next (deliverEvent s src)

end Sys2Proof.Machine
end

