-- ==== Sys2Proof/Machine/Rv32.lean ====
section
/-! DEFINITION. The instructions of the application harts: RV32IMAC with Zicsr and Zifencei, decoded, and what their
arithmetic gives (R332).

PRESUMED: encodings and results come from the RISC-V manuals that R332 names; the specification gives none of them
(log 95). -/

namespace Sys2Proof.Machine

/-! ### Operations -/

/-- Arithmetic and logic of I and M. -/
inductive AluOp where
  | add | sub | sll | slt | sltu | xor | srl | sra | or | and
  | mul | mulh | mulhsu | mulhu | div | divu | rem | remu
  deriving DecidableEq, Repr

/-- The comparisons of branches. -/
inductive Cmp where
  | eq | ne | lt | ge | ltu | geu
  deriving DecidableEq, Repr

/-- What a CSR instruction does with the old value. -/
inductive CsrOp where
  | write | set | clear
  deriving DecidableEq, Repr

/-- A second operand: a register or an immediate. -/
inductive Src where
  | reg (r : Nat)
  | imm (v : BitVec 32)
  deriving DecidableEq, Repr

/-- A decoded instruction. -/
inductive RvOp where
  | lui (rd : Nat) (v : BitVec 32)
  | auipc (rd : Nat) (v : BitVec 32)
  | jal (rd : Nat) (off : BitVec 32)
  | jalr (rd rs : Nat) (off : BitVec 32)
  | branch (c : Cmp) (a b : Nat) (off : BitVec 32)
  | load (rd rs : Nat) (off : BitVec 32) (bytes : Nat) (signed : Bool)
  | store (rs src : Nat) (off : BitVec 32) (bytes : Nat)
  | alu (f : AluOp) (rd rs : Nat) (b : Src)
  | fence (pred : BitVec 4) (tso : Bool)
  | fenceI
  | ecall
  | ebreak
  | mret
  | wfi
  | csr (f : CsrOp) (rd num : Nat) (b : Src)
  | lr (rd rs : Nat)
  | sc (rd rs src : Nat) (rl : Bool)
  | amo (f rd rs src : Nat) (rl : Bool)
  deriving DecidableEq, Repr

/-- An operation's result; division by zero gives all ones and leaves the dividend as remainder. -/
def alu (f : AluOp) (a b : BitVec 32) : BitVec 32 :=
  let sh := b.toNat % 32
  match f with
  | .add => a + b
  | .sub => a - b
  | .sll => a <<< sh
  | .slt => BitVec.ofNat 32 (place (a.slt b) 0)
  | .sltu => BitVec.ofNat 32 (place (a.ult b) 0)
  | .xor => a ^^^ b
  | .srl => a >>> sh
  | .sra => a.sshiftRight sh
  | .or => a ||| b
  | .and => a &&& b
  | .mul => a * b
  | .mulh => BitVec.ofInt 32 (a.toInt * b.toInt / 2 ^ 32)
  | .mulhsu => BitVec.ofInt 32 (a.toInt * (b.toNat : Int) / 2 ^ 32)
  | .mulhu => BitVec.ofNat 32 (a.toNat * b.toNat / 2 ^ 32)
  | .div => if b = 0 then BitVec.allOnes 32 else BitVec.ofInt 32 (a.toInt.tdiv b.toInt)
  | .divu => if b = 0 then BitVec.allOnes 32 else a / b
  | .rem => BitVec.ofInt 32 (a.toInt.tmod b.toInt)
  | .remu => a % b

/-- A branch's condition. -/
def cmp (c : Cmp) (a b : BitVec 32) : Bool :=
  match c with
  | .eq => a == b
  | .ne => a != b
  | .lt => a.slt b
  | .ge => !a.slt b
  | .ltu => a.ult b
  | .geu => !a.ult b

/-! ### 32-bit encodings -/

/-- A signed immediate of n bits. -/
def rvImm (n v : Nat) : BitVec 32 := BitVec.ofInt 32 (sgn n v)

/-- Bits hi to lo of an encoding, moved to bit `at_`. -/
def rvPart (w hi lo at_ : Nat) : Nat := fld w hi lo * 2 ^ at_

/-- The comparison of a branch. -/
def rvCmp (f3 : Nat) : Option Cmp :=
  match f3 with
  | 0 => some .eq | 1 => some .ne | 4 => some .lt | 5 => some .ge | 6 => some .ltu | 7 => some .geu | _ => none

/-- The operation of OP by funct7 and funct3. -/
def rvAlu (f7 f3 : Nat) : Option AluOp :=
  match f7, f3 with
  | 0, 0 => some .add | 0, 1 => some .sll | 0, 2 => some .slt | 0, 3 => some .sltu
  | 0, 4 => some .xor | 0, 5 => some .srl | 0, 6 => some .or | 0, 7 => some .and
  | 32, 0 => some .sub | 32, 5 => some .sra
  | 1, 0 => some .mul | 1, 1 => some .mulh | 1, 2 => some .mulhsu | 1, 3 => some .mulhu
  | 1, 4 => some .div | 1, 5 => some .divu | 1, 6 => some .rem | 1, 7 => some .remu
  | _, _ => none

/-- Size and sign of a load. -/
def rvLoad (f3 : Nat) : Option (Nat × Bool) :=
  match f3 with
  | 0 => some (1, true) | 1 => some (2, true) | 2 => some (4, true) | 4 => some (1, false) | 5 => some (2, false) | _ => none

/-- The function of an AMO, as AMO numbers it. -/
def rvAmo (f5 : Nat) : Option Nat :=
  match f5 with
  | 1 => some 0 | 0 => some 1 | 4 => some 2 | 12 => some 3 | 8 => some 4
  | 16 => some 5 | 20 => some 6 | 24 => some 7 | 28 => some 8 | _ => none

/-- OP-IMM: the shifts by their funct7, the others by their 12-bit immediate. -/
def rvOpImm (w rd rs f3 : Nat) : Option RvOp :=
  if f3 = 1 ∨ f3 = 5 then
    if fld w 31 25 = 1 then none
    else (rvAlu (fld w 31 25) f3).map fun f => .alu f rd rs (.imm (BitVec.ofNat 32 (fld w 24 20)))
  else (rvAlu 0 f3).map fun f => .alu f rd rs (.imm (rvImm 12 (fld w 31 20)))

/-- SYSTEM. -/
def rvSystem (w rd rs f3 : Nat) : Option RvOp :=
  let num := fld w 31 20
  let b : Src := if f3 < 4 then .reg rs else .imm (BitVec.ofNat 32 rs)
  match f3 % 4 with
  | 1 => some (.csr .write rd num b)
  | 2 => some (.csr .set rd num b)
  | 3 => some (.csr .clear rd num b)
  | _ =>
    if w = 0x00000073 then some .ecall
    else if w = 0x00100073 then some .ebreak
    else if w = 0x30200073 then some .mret
    else if w = 0x10500073 then some .wfi
    else none

/-- AMO, LR and SC. -/
def rvAtomic (w rd rs src : Nat) : Option RvOp :=
  let f5 := fld w 31 27
  let rl := bit w 25
  if f5 = 2 then (if src = 0 then some (.lr rd rs) else none)
  else if f5 = 3 then some (.sc rd rs src rl)
  else (rvAmo f5).map fun f => .amo f rd rs src rl

/-- A 32-bit instruction; `none` where it is illegal. -/
def decode32 (w : Nat) : Option RvOp :=
  let rd := fld w 11 7
  let f3 := fld w 14 12
  let rs := fld w 19 15
  let src := fld w 24 20
  match fld w 6 0 with
  | 0x37 => some (.lui rd (BitVec.ofNat 32 (rvPart w 31 12 12)))
  | 0x17 => some (.auipc rd (BitVec.ofNat 32 (rvPart w 31 12 12)))
  | 0x6F => some (.jal rd (rvImm 21 (rvPart w 31 31 20 + rvPart w 19 12 12 + rvPart w 20 20 11 + rvPart w 30 21 1)))
  | 0x67 => if f3 = 0 then some (.jalr rd rs (rvImm 12 (fld w 31 20))) else none
  | 0x63 => (rvCmp f3).map fun c =>
      .branch c rs src (rvImm 13 (rvPart w 31 31 12 + rvPart w 7 7 11 + rvPart w 30 25 5 + rvPart w 11 8 1))
  | 0x03 => (rvLoad f3).map fun e => .load rd rs (rvImm 12 (fld w 31 20)) e.1 e.2
  | 0x23 => if f3 < 3 then some (.store rs src (rvImm 12 (rvPart w 31 25 5 + rd)) (2 ^ f3)) else none
  | 0x13 => rvOpImm w rd rs f3
  | 0x33 => (rvAlu (fld w 31 25) f3).map fun f => .alu f rd rs (.reg src)
  | 0x0F =>
    if f3 = 0 then some (.fence (BitVec.ofNat 4 (fld w 27 24)) (fld w 31 20 == 0x833))
    else if f3 = 1 then some .fenceI
    else none
  | 0x73 => rvSystem w rd rs f3
  | 0x2F => if f3 = 2 then rvAtomic w rd rs src else none
  | _ => none

/-! ### 16-bit encodings -/

/-- A register of the eight that a three-bit field names. -/
def rvShort (v : Nat) : Nat := 8 + v

/-- The first quadrant: stack addresses, loads and stores of a word. -/
def decodeC0 (h : Nat) : Option RvOp :=
  let a := rvShort (fld h 9 7)
  let b := rvShort (fld h 4 2)
  let off := BitVec.ofNat 32 (rvPart h 12 10 3 + rvPart h 6 6 2 + rvPart h 5 5 6)
  let imm := rvPart h 12 11 4 + rvPart h 10 7 6 + rvPart h 6 6 2 + rvPart h 5 5 3
  match fld h 15 13 with
  | 0 => if imm = 0 then none else some (.alu .add b 2 (.imm (BitVec.ofNat 32 imm)))
  | 2 => some (.load b a off 4 true)
  | 6 => some (.store a b off 4)
  | _ => none

/-- The arithmetic row of the second quadrant. -/
def decodeCAlu (h : Nat) : Option RvOp :=
  let a := rvShort (fld h 9 7)
  let b := rvShort (fld h 4 2)
  let sh : Src := .imm (BitVec.ofNat 32 (fld h 6 2))
  match fld h 11 10 with
  | 0 => if bit h 12 then none else some (.alu .srl a a sh)
  | 1 => if bit h 12 then none else some (.alu .sra a a sh)
  | 2 => some (.alu .and a a (.imm (rvImm 6 (rvPart h 12 12 5 + fld h 6 2))))
  | _ =>
    if bit h 12 then none
    else match fld h 6 5 with
    | 0 => some (.alu .sub a a (.reg b))
    | 1 => some (.alu .xor a a (.reg b))
    | 2 => some (.alu .or a a (.reg b))
    | _ => some (.alu .and a a (.reg b))

/-- The second quadrant: immediates, jumps and branches. -/
def decodeC1 (h : Nat) : Option RvOp :=
  let r := fld h 11 7
  let a := rvShort (fld h 9 7)
  let imm := rvImm 6 (rvPart h 12 12 5 + fld h 6 2)
  let jump := rvImm 12 (rvPart h 12 12 11 + rvPart h 11 11 4 + rvPart h 10 9 8 + rvPart h 8 8 10 + rvPart h 7 7 6
    + rvPart h 6 6 7 + rvPart h 5 3 1 + rvPart h 2 2 5)
  let near := rvImm 9 (rvPart h 12 12 8 + rvPart h 11 10 3 + rvPart h 6 5 6 + rvPart h 4 3 1 + rvPart h 2 2 5)
  let stack := rvImm 10 (rvPart h 12 12 9 + rvPart h 6 6 4 + rvPart h 5 5 6 + rvPart h 4 3 7 + rvPart h 2 2 5)
  match fld h 15 13 with
  | 0 => some (.alu .add r r (.imm imm))
  | 1 => some (.jal 1 jump)
  | 2 => some (.alu .add r 0 (.imm imm))
  | 3 =>
    if r = 2 then (if stack = 0 then none else some (.alu .add 2 2 (.imm stack)))
    else if imm = 0 then none else some (.lui r (imm <<< 12))
  | 4 => decodeCAlu h
  | 5 => some (.jal 0 jump)
  | 6 => some (.branch .eq a 0 near)
  | _ => some (.branch .ne a 0 near)

/-- The third quadrant: shifts, moves, jumps by register, loads and stores on the stack. -/
def decodeC2 (h : Nat) : Option RvOp :=
  let r := fld h 11 7
  let b := fld h 6 2
  match fld h 15 13 with
  | 0 => if bit h 12 then none else some (.alu .sll r r (.imm (BitVec.ofNat 32 b)))
  | 2 =>
    if r = 0 then none
    else some (.load r 2 (BitVec.ofNat 32 (rvPart h 12 12 5 + rvPart h 6 4 2 + rvPart h 3 2 6)) 4 true)
  | 4 =>
    if b ≠ 0 then some (.alu .add r (if bit h 12 then r else 0) (.reg b))
    else if r = 0 then (if bit h 12 then some .ebreak else none)
    else some (.jalr (if bit h 12 then 1 else 0) r 0)
  | 6 => some (.store 2 b (BitVec.ofNat 32 (rvPart h 12 9 2 + rvPart h 8 7 6)) 4)
  | _ => none

/-- A 16-bit instruction; `none` where it is illegal. -/
def decode16 (h : Nat) : Option RvOp :=
  match h % 4 with
  | 0 => decodeC0 h
  | 1 => decodeC1 h
  | _ => decodeC2 h

/-- An instruction and its length in bytes, from 32 bits at its address. -/
def decodeRv (w : Nat) : Option RvOp × Nat := if w % 4 = 3 then (decode32 w, 4) else (decode16 (w % 0x10000), 2)

end Sys2Proof.Machine
end

