-- ==== Sys2Proof/Machine/Sites.lean ====
section
/-! DEFINITION. Hard sites at a capture edge: the memory site's port A and the MAC site (R69 to R73, R134 to R139,
R432). A capture takes the coming F1 edge. The command either says what IN carries, or (`none`) leaves it to the
fabric, which may leave it undefined. -/

namespace Sys2Proof.Machine

/-- The coming edge is the swap edge of a scheduled group of a partition: its boundary has come, or comes with that
edge (R173). -/
def swapsNext (s : State) (q : SwapReq) : Bool :=
  nextEdge s % 8 == 0
    && (q.released || (s.clk.k + 1 == s.clk.slotLen && decide (q.boundary ≤ s.clk.systime + 1000)))

/-- A region swaps under INIT at the coming edge, at which its hard sites do not capture (Table 8-4). -/
def initNext (s : State) (r : Nat) : Bool :=
  s.pwr.entry.isNone && (List.range 4).any fun cg =>
    tget .idle s.fab.shadowState r == .staged cg
      && (match (tget {} s.swp.groups (4 * regionPart s r + cg)).sched with
        | some q => !q.keep && swapsNext s q
        | none => false)

/-- A site captures at the coming edge, and has not yet done so: its partition's user clocks run, it is enabled, its
domain has an edge, and no swap initialises it there (R69, R70, R119, R139, Table 8-4). -/
def siteCaptures (s : State) (r t : Nat) : Bool :=
  s.clk.started && userRuns s (regionPart s r) && siteEn s.fab.active r t
    && nextEdge s % domPeriod (siteDom s.fab.active r t) == 0
    && !s.fab.captured.contains (siteKey r t) && !initNext s r

/-- s with a site's capture at the coming edge made. -/
def captured (s : State) (r t : Nat) : State :=
  { s with fab := { s.fab with captured := sins (siteKey r t) s.fab.captured } }

/-- What IN carries at the capture. -/
def inPins (s : State) (r t : Nat) (pins : Option (BitVec 48)) : Option (BitVec 48) :=
  match pins with
  | some p => some p
  | none => sitePins s r t

/-! ### Memory sites (R71, R72) -/

/-- One port A access as IN asks for it (Table 3-6). -/
def portAccess (s : State) (b : Nat) (w : Nat) : State :=
  if !bit w 33 then s
  else if bit w 32 then portAWrite s b (bit w 31) (fld w 30 16) (BitVec.ofNat 16 (fld w 15 0))
  else portARead s b (bit w 31) (fld w 30 16)

/-- A free check status. -/
def freeChk (n i : Nat) : Chk :=
  if Config.freeBit n (2 + 2 * i) then .good else if Config.freeBit n (3 + 2 * i) then .cor else .ue

/-- A capture with undefined pins (R432): any one access or none, a read with its entry in the error log; every byte of
the bank that it writes takes a free value and a free check status; OUT is undefined from two edges later. -/
def undefinedAccess (s : State) (b : Nat) : State :=
  let (n, s) := draw s
  let w := (Config.freePins n 0).toNat
  let s := portAccess s b w
  let s := if bit w 33 && bit w 32 && !bankRetired s b && !bankBusy s b then
      (upto (fld w 30 16) (if bit w 31 then 2 else 1)).foldl
        (fun s a => putByte s (bankKey b a) (Config.freeByte n (a % 2)) (freeChk n (a % 2))) s
    else s
  siteResult s b ⟨Config.freeWord n 0, Config.freeBit n 0, Config.freeBit n 1⟩

/-- A memory-site capture (R71). -/
def memCapture (s : State) (b : Nat) (pins : Option (BitVec 48)) : State :=
  let r := b / 4
  let t := 12 + b % 4
  if siteCaptures s r t then
    match inPins s r t pins with
    | some p => portAccess (captured s r t) b p.toNat
    | none => undefinedAccess (captured s r t) b
  else s

/-! ### MAC sites (R134 to R139) -/

/-- The MAC site of a tile. -/
def macOf (s : State) (r t : Nat) : Mac := tget {} s.fab.mac (siteKey r t)

/-- s with a MAC site replaced. -/
def setMac (s : State) (r t : Nat) (m : Mac) : State :=
  { s with fab := { s.fab with mac := tset {} s.fab.mac (siteKey r t) m } }

/-- An operand or one byte of it as an integer, signed or not. -/
def operand (isSigned : Bool) (bits v : Nat) : Int := if isSigned then sgn bits v else ((v % 2 ^ bits : Nat) : Int)

/-- A product: whole, or the sum of the products of the bytes (R136). -/
def product (split : Bool) (sx sk : Bool) (x k : Nat) : Int :=
  if split then operand sx 8 x * operand sk 8 k + operand sx 8 (x / 256) * operand sk 8 (k / 256)
  else operand sx 16 x * operand sk 16 k

/-- CASCIN of a site at the coming edge: ACC0 of the site before it, with every capture at or before two edges ago; 0
for tile 0 and after a disabled site (R139). -/
def cascIn (s : State) (r t : Nat) : Nat :=
  if t = 0 || !siteEn s.fab.active r (t - 1) then 0
  else
    let m := macOf s r (t - 1)
    match m.hist.find? (fun e => e.1 + 2 ≤ nextEdge s) with
    | some e => e.2.toNat
    | none => m.acc0.toNat

/-- An accumulator after an operation: hold, add, load, clear (Table 6-5). -/
def accNext (op : Nat) (acc : BitVec 48) (t : Int) : BitVec 48 :=
  match op % 4 with
  | 0 => acc
  | 1 => BitVec.ofNat 48 (wrap 48 ((acc.toNat : Int) + t))
  | 2 => BitVec.ofNat 48 (wrap 48 t)
  | _ => 0

/-- OUT by OSEL (Table 6-5). -/
def macOut (osel : Nat) (a0 a1 : BitVec 48) : BitVec 32 :=
  match osel % 4 with
  | 0 => BitVec.ofNat 32 a0.toNat
  | 1 => BitVec.ofNat 32 a1.toNat
  | 2 => BitVec.ofNat 32 (a0.toNat / 65536)
  | _ => BitVec.ofNat 32 (a1.toNat / 65536)

/-- The MAC site after a capture of defined pins (R135 to R139). -/
def macNext (m : Mac) (cfg pins casc c : Nat) : Mac :=
  let x0 := fld pins 15 0
  let x1 := fld pins 31 16
  let dir := bit pins 36
  let p0 := if bit pins 39 then 0
    else if dir then product (bit cfg 11) (bit cfg 15) (bit cfg 14) x0 x1
    else product (bit cfg 11) (bit cfg 15) (bit cfg 14) x0 m.k0.toNat
  let p1 := if bit pins 38 || dir then 0 else product (bit cfg 10) (bit cfg 13) (bit cfg 12) x1 m.k1.toNat
  let t0 := (if bit pins 43 then -p0 else p0) + (if bit pins 37 then (casc : Int) else 0)
  let t1 := if bit pins 42 then -p1 else p1
  let a0 := accNext (fld pins 47 46) m.acc0 t0
  let a1 := accNext (fld pins 45 44) m.acc1 t1
  { k0 := if bit pins 39 then BitVec.ofNat 16 x0 else m.k0
    k1 := if bit pins 38 then BitVec.ofNat 16 x1 else m.k1
    acc0 := a0
    acc1 := a1
    out := m.out
    pend := m.pend ++ [(c + 2, macOut (fld pins 41 40) a0 a1)]
    hist := ((c, a0) :: (if m.hist.isEmpty then [(0, m.acc0)] else m.hist)).take 4 }

/-- The MAC site after a capture of undefined pins: every register may take any value (R432). -/
def macFree (m : Mac) (n c : Nat) : Mac :=
  let a0 := Config.freePins n 0
  { k0 := Config.freeWord n 0, k1 := Config.freeWord n 1, acc0 := a0, acc1 := Config.freePins n 1
    out := m.out
    pend := m.pend ++ [(c + 2, BitVec.ofNat 32 (Config.freePins n 2).toNat)]
    hist := ((c, a0) :: (if m.hist.isEmpty then [(0, m.acc0)] else m.hist)).take 4 }

/-- A MAC capture. `force` sets the control bits that name the operation; the data and the other controls are as IN
carries them. The coming edge captures each site once: by a command, or by itself. -/
def macCapture (s : State) (r t : Nat) (pins : Option (BitVec 48)) (force : Nat → Nat) : State :=
  if t < 12 && siteCaptures s r t then
    match inPins s r t pins with
    | some p =>
      setMac (captured s r t) r t
        (macNext (macOf s r t) (siteWord s.fab.active r t 1) (force p.toNat) (cascIn s r t) (nextEdge s))
    | none =>
      let (n, s) := draw (captured s r t)
      setMac s r t (macFree (macOf s r t) n (nextEdge s))
  else s

/-- The OP field of an accumulator in the control bus. -/
def setOp (acc op : Nat) (pins : Nat) : Nat := if acc = 0 then setFld pins 47 46 op else setFld pins 45 44 op

/-- The hard sites that capture at the coming edge without a command: IN is what the fabric drives (R69, R71, R138). -/
def sitesDue (s : State) : List Nat :=
  (runningRegions s).flatMap fun r => (upto (16 * r) 16).filter fun k => siteCaptures s r (k % 16)

/-- One of them captures. -/
def siteCapture (s : State) (k : Nat) : State :=
  if k % 16 < 12 then macCapture s (k / 16) (k % 16) none id else memCapture s (4 * (k / 16) + (k % 16 - 12)) none

/-- Every hard site captures that no command has made capture (R69). -/
def siteEdge (s : State) : State := (sitesDue s).foldl siteCapture s

/-! ### The commands -/

/-- ACCESS: a memory-site capture with EN = 1 makes one port A access (R71). -/
def execAccess (b : Nat) (pins : Option (BitVec 48)) (s : State) : Result :=
  .next (if b < 1536 then memCapture s b (pins.map fun p => p ||| 0x200000000) else s)

/-- PORT_A_READ: a read captured at the coming edge returns on OUT two edges later (R72, R119). -/
def execPortARead (b : Nat) (wide : Bool) (a : Nat) (s : State) : Result :=
  .next (if b < 1536 ∧ siteCaptures s (b / 4) (12 + b % 4) then portARead (captured s (b / 4) (12 + b % 4)) b wide a
    else s)

/-- PORT_A_WRITE: a write captured at the coming edge is in the array from the next cycle, and OUT is unchanged (R72,
R119). -/
def execPortAWrite (b : Nat) (wide : Bool) (a : Nat) (d : Word) (s : State) : Result :=
  .next (if b < 1536 ∧ siteCaptures s (b / 4) (12 + b % 4) then portAWrite (captured s (b / 4) (12 + b % 4)) b wide a d
    else s)

/-- ACC_ADD: a MAC capture with OPn = 0b01 (R135, R137). -/
def execAccAdd (r t acc : Nat) (pins : Option (BitVec 48)) (s : State) : Result :=
  .next (macCapture s r t pins (setOp acc 1))

/-- ACC_LOAD: a MAC capture with OPn = 0b10. -/
def execAccLoad (r t acc : Nat) (pins : Option (BitVec 48)) (s : State) : Result :=
  .next (macCapture s r t pins (setOp acc 2))

/-- ACC_CLEAR: a MAC capture with OPn = 0b11. -/
def execAccClear (r t acc : Nat) (pins : Option (BitVec 48)) (s : State) : Result :=
  .next (macCapture s r t pins (setOp acc 3))

/-- LDK: a MAC capture with LDKn = 1 (R136). -/
def execLdk (r t k : Nat) (pins : Option (BitVec 48)) (s : State) : Result :=
  .next (macCapture s r t pins fun p => setFld p (39 - k % 2) (39 - k % 2) 1)

/-- DIRECT: a MAC capture with DIRECT = 1 (R136). -/
def execDirect (r t : Nat) (pins : Option (BitVec 48)) (s : State) : Result :=
  .next (macCapture s r t pins fun p => setFld p 36 36 1)

end Sys2Proof.Machine
end

