-- ==== Sys2Proof/Machine/HartBase.lean ====
section
/-! DEFINITION. The application harts: CSRs, the instruction that comes next, traps, resets, interrupts, and completions
of their accesses (R332 to R342). -/

namespace Sys2Proof.Machine

/-! ### CSRs and registers (Table 15-2) -/

/-- mip: MEIP from the event controller, MTIP from SYSTIME and mtimecmp. -/
def mip (s : State) (h : Nat) : BitVec 32 :=
  BitVec.ofNat 32 (place (meip s h) 11 + place (decide ((hartOf s h).mtimecmp.toNat ≤ sysNow s % 2 ^ 64)) 7)

/-- Interrupts pending and enabled in mie. -/
def hartPending (s : State) (h : Nat) : BitVec 32 := mip s h &&& (hartOf s h).mieReg

/-- mstatus: MPP 0b11, MPIE, MIE. -/
def mstatus (x : Hart) : BitVec 32 := BitVec.ofNat 32 (0x1800 + place x.mpie 7 + place x.mie 3)

/-- The hart's registers after a write of rd; x0 stays 0. -/
def setX (x : Hart) (rd : Nat) (v : BitVec 32) : Hart :=
  if rd = 0 ∨ rd ≥ 32 then x else { x with x := tset 0 x.x rd v }

/-! ### The instruction at the pc (R335) -/

/-- The address of the 32-bit word that holds an address. -/
def wordAddr (a : BitVec 32) : BitVec 32 := a &&& 0xFFFFFFFC

/-- A word of the prefetch buffer: `none` if it is not there. -/
def fetched (x : Hart) (a : BitVec 32) : Option (Option (BitVec 32)) := (x.prefetch.find? (·.1 == a)).map (·.2)

/-- What the prefetch buffer holds at the pc. -/
inductive Code where
  /-- a word is missing -/
  | missing
  /-- the fetch of the word at an address faulted -/
  | fault (a : BitVec 32)
  /-- 32 bits, of which a 16-bit instruction takes the low half -/
  | bits (w : Nat)
  deriving DecidableEq, Repr

/-- The instruction bits at the pc. -/
def codeAt (x : Hart) : Code :=
  let a := wordAddr x.pc
  match fetched x a with
  | none => .missing
  | some none => .fault x.pc
  | some (some w) =>
    if x.pc.toNat % 4 < 2 then .bits w.toNat
    else
      let hi := w.toNat / 0x10000
      if hi % 4 ≠ 3 then .bits hi
      else match fetched x (a + 4) with
      | none => .missing
      | some none => .fault (a + 4)
      | some (some w') => .bits (hi + w'.toNat % 0x10000 * 0x10000)

/-- The pc after the instruction at the pc. -/
def nextPc (x : Hart) : BitVec 32 :=
  match codeAt x with
  | .bits w => x.pc + BitVec.ofNat 32 (decodeRv w).2
  | _ => x.pc

/-- The pc moves on, and the prefetch buffer drops the words before it. -/
def atPc (x : Hart) (a : BitVec 32) : Hart :=
  { x with pc := a, prefetch := x.prefetch.filter fun e => e.1 == wordAddr a || e.1 == wordAddr a + 4 }

/-- One more instruction retired, and the hart goes to an address. -/
def retireTo (x : Hart) (a : BitVec 32) : Hart := atPc { x with minstret := x.minstret + 1 } a

/-- One more instruction retired: the pc moves past it. -/
def retire (x : Hart) : Hart := retireTo x (nextPc x)

/-- HRT_CTL. -/
def hrtCtl (s : State) (h : Nat) : Nat := (dev s (0xF0010 + 4 * h) 0).toNat

/-- The boot address: the base of bank BOOT. -/
def bootAddr (s : State) (h : Nat) : BitVec 32 := BitVec.ofNat 32 (0x40000000 + hrtCtl s h % 2048 * 32768)

/-- A hart's clock runs: its partition's user clocks do (R341). -/
def hartRuns (s : State) (h : Nat) : Bool := userRuns s (hartPart s h)

/-- A hart can carry out an instruction now. -/
def hartReady (s : State) (h : Nat) : Bool :=
  decide (h < 4) && (hartOf s h).state == .run && (hartOf s h).wait.isNone && hartRuns s h

/-- HRT_STAT. -/
def hrtStat (s : State) (h : Nat) : Word :=
  let x := hartOf s h
  let stopped := s.mode == .m6 || s.mode == .m7 || gated s || frozen s (hartPart s h)
  let code := match x.state with
    | .off => 0
    | .run => if stopped then 3 else 1
    | .wfi => if stopped then 3 else 2
    | .fault => 4
  BitVec.ofNat 16 (code * 8192 + place x.lastInt 5 + x.lastCode % 32)

/-! ### CSRs (Table 15-2) -/

/-- What a CSR reads as; `none` for one that Table 15-2 does not list. -/
def csrValue (s : State) (h : Nat) (num : Nat) : Option (BitVec 32) :=
  let x := hartOf s h
  let hi := fun (v : BitVec 64) => (v >>> 32).setWidth 32
  let now := BitVec.ofNat 64 (sysNow s)
  match num with
  | 0x300 => some (mstatus x)
  | 0x310 => some 0
  | 0x301 => some 0x40001105
  | 0x304 => some x.mieReg
  | 0x305 => some x.mtvec
  | 0x340 => some x.mscratch
  | 0x341 => some x.mepc
  | 0x342 => some x.mcause
  | 0x343 => some x.mtval
  | 0x344 => some (mip s h)
  | 0xB00 | 0xC00 => some (x.mcycle.setWidth 32)
  | 0xB80 | 0xC80 => some (hi x.mcycle)
  | 0xB02 | 0xC02 => some (x.minstret.setWidth 32)
  | 0xB82 | 0xC82 => some (hi x.minstret)
  | 0xC01 => some (now.setWidth 32)
  | 0xC81 => some (hi now)
  | 0x7C0 => some (x.mtimecmp.setWidth 32)
  | 0x7C1 => some (hi x.mtimecmp)
  | 0xF11 | 0xF12 | 0xF13 => some 0
  | 0xF14 => some (BitVec.ofNat 32 h)
  | _ => none

/-- One half of a 64-bit counter written. -/
def lowHalf (v : BitVec 64) (w : BitVec 32) : BitVec 64 := (v >>> 32).setWidth 32 ++ w
def highHalf (v : BitVec 64) (w : BitVec 32) : BitVec 64 := w ++ v.setWidth 32

/-- A CSR written: only the implemented bits take the value, and what Table 15-2 gives as read-only stays. -/
def csrWrite (x : Hart) (num : Nat) (v : BitVec 32) : Hart :=
  match num with
  | 0x300 => { x with mie := v.getLsbD 3, mpie := v.getLsbD 7 }
  | 0x304 => { x with mieReg := v &&& 0x880 }
  | 0x305 => { x with mtvec := wordAddr v }
  | 0x340 => { x with mscratch := v }
  | 0x341 => { x with mepc := v &&& 0xFFFFFFFE }
  | 0x342 => { x with mcause := v }
  | 0x343 => { x with mtval := v }
  | 0xB00 => { x with mcycle := lowHalf x.mcycle v }
  | 0xB80 => { x with mcycle := highHalf x.mcycle v }
  | 0xB02 => { x with minstret := lowHalf x.minstret v }
  | 0xB82 => { x with minstret := highHalf x.minstret v }
  | 0x7C0 => { x with mtimecmp := lowHalf x.mtimecmp v }
  | 0x7C1 => { x with mtimecmp := highHalf x.mtimecmp v }
  | _ => x

/-! ### What the next instruction does -/

/-- What a hart does next. -/
inductive HartAct where
  /-- it waits for a fetch -/
  | fetch
  /-- the fetch of the word at an address has faulted -/
  | fetchFault (a : BitVec 32)
  /-- an exception of the instruction itself: 2, 3 or 11 -/
  | exception (code : Nat) (tval : BitVec 32)
  /-- an instruction that reaches no memory leaves the hart so -/
  | plain (y : Hart)
  | load (rd : Nat) (addr : BitVec 32) (bytes : Nat) (signed : Bool)
  | store (addr : BitVec 32) (bytes : Nat) (data : BitVec 32)
  | fence (pred : BitVec 4) (tso : Bool)
  | fenceI
  | wfi
  | lr (rd : Nat) (addr : BitVec 32)
  | sc (rd : Nat) (addr data : BitVec 32) (rl : Bool)
  | amo (rd f : Nat) (addr data : BitVec 32) (rl : Bool)
  deriving DecidableEq, Repr

/-- A register of the hart. -/
def xreg (x : Hart) (r : Nat) : BitVec 32 := if r = 0 then 0 else tget 0 x.x r

/-- A second operand's value. -/
def srcValue (x : Hart) : Src → BitVec 32
  | .reg r => xreg x r
  | .imm v => v

/-- A second operand of a CSR instruction that writes nothing: x0, or the immediate 0. -/
def srcNone : Src → Bool
  | .reg r => r == 0
  | .imm v => v == 0

/-- A CSR instruction: the illegal-instruction exception for a CSR that Table 15-2 does not list, and for a write of a
read-only one. -/
def csrAct (s : State) (h : Nat) (f : CsrOp) (rd num : Nat) (b : Src) : HartAct :=
  let x := hartOf s h
  let writes := f == .write || !srcNone b
  match csrValue s h num with
  | none => .exception 2 0
  | some old =>
    if writes && num / 0x400 == 3 then .exception 2 0
    else
      let v := srcValue x b
      let new := match f with
        | .write => v
        | .set => old ||| v
        | .clear => old &&& ~~~v
      let y := retire x
      .plain (setX (if writes then csrWrite y num new else y) rd old)

/-- What a decoded instruction does (R332). mtval of an illegal instruction and of an environment call is 0, and of a
breakpoint its address (DESIGN CHOICE, log 71). -/
def rvAct (s : State) (h : Nat) (op : RvOp) : HartAct :=
  let x := hartOf s h
  let r := xreg x
  match op with
  | .lui rd v => .plain (retire (setX x rd v))
  | .auipc rd v => .plain (retire (setX x rd (x.pc + v)))
  | .jal rd off => .plain (retireTo (setX x rd (nextPc x)) (x.pc + off))
  | .jalr rd rs off => .plain (retireTo (setX x rd (nextPc x)) ((r rs + off) &&& 0xFFFFFFFE))
  | .branch c a b off => .plain (retireTo x (if cmp c (r a) (r b) then x.pc + off else nextPc x))
  | .load rd rs off n sg => .load rd (r rs + off) n sg
  | .store rs src off n => .store (r rs + off) n (r src)
  | .alu f rd rs b => .plain (retire (setX x rd (alu f (r rs) (srcValue x b))))
  | .fence pred tso => .fence pred tso
  | .fenceI => .fenceI
  | .ecall => .exception 11 0
  | .ebreak => .exception 3 x.pc
  | .mret => .plain (retireTo { x with mie := x.mpie, mpie := true } x.mepc)
  | .wfi => .wfi
  | .csr f rd num b => csrAct s h f rd num b
  | .lr rd rs => .lr rd (r rs)
  | .sc rd rs src rl => .sc rd (r rs) (r src) rl
  | .amo f rd rs src rl => .amo rd f (r rs) (r src) rl

/-- What the instruction at the pc does. -/
def hartAct (s : State) (h : Nat) : HartAct :=
  match codeAt (hartOf s h) with
  | .missing => .fetch
  | .fault a => .fetchFault a
  | .bits w =>
    match (decodeRv w).1 with
    | none => .exception 2 0
    | some op => rvAct s h op

/-- A hart can carry out an instruction now, and this is what its next one does. -/
def hartDoes (s : State) (h : Nat) (a : HartAct) : Bool := hartReady s h && hartAct s h == a

/-! ### Traps and resets (R339, R342) -/

/-- A trap: mepc, mcause, mtval, MPIE and MIE are written, and the hart goes to mtvec (R339). -/
def trap (s : State) (h : Nat) (intr : Bool) (code : Nat) (tval : BitVec 32) : State :=
  let x := hartOf s h
  setHart s h { x with
    state := .run, mepc := x.pc, mcause := BitVec.ofNat 32 (place intr 31 + code), mtval := tval
    mpie := x.mie, mie := false, pc := x.mtvec, reservation := none, prefetch := [], wait := none
    lastInt := intr, lastCode := code }

/-- A fetch faults: the hart traps, or stops in FAULT where the fetch is the one at mtvec (R339). -/
def fetchTrap (s : State) (h : Nat) (a : BitVec 32) : State :=
  if (hartOf s h).pc = (hartOf s h).mtvec then
    let t := trap s h false 1 a
    raiseEv (setHart t h { hartOf t h with state := .fault }) (1872 + h)
  else trap s h false 1 a

/-- A buffered store faults: the hart traps, unless it has stopped in FAULT, which only a hart reset ends, or is OFF
(R336, R339). -/
def storeFault (s : State) (h : Nat) (addr : BitVec 32) : State :=
  match (hartOf s h).state with
  | .run | .wfi => trap s h false 7 addr
  | .off | .fault => s

/-- Requests of a master that no bank has served go, and completions for it (R342). -/
def dropMaster (s : State) (m : Nat) : State :=
  let waiting := s.bank.waiting.foldl (fun t e => tset [] t e.1 (e.2.filter (·.master != m))) s.bank.waiting
  { s with bank := { s.bank with waiting := waiting, done := s.bank.done.filter (·.master != m) } }

/-- A hart reset (R342): CSRs at reset, buffers and reservation gone, the boot address if RUN is 1 and the partition is
enabled, OFF otherwise. -/
def hartReset (s : State) (h : Nat) : State :=
  let x := hartOf s h
  let on := bit (hrtCtl s h) 15 && enabled s (hartPart s h)
  let a := bootAddr s h
  setHart (dropMaster s (2 + h)) h { x := x.x, state := if on then .run else .off, pc := a, mtvec := a }

/-- HRT_CTL: BOOT outside the partition INVALID, a change of BOOT under RUN = 1 BUSY. -/
def hrtCtlCheck (s : State) (h val : Nat) : Option Nat :=
  let b := val % 2048
  if b ≥ 1536 ∨ bankPart s b ≠ hartPart s h then some stInvalid
  else if bit (hrtCtl s h) 15 ∧ b ≠ hrtCtl s h % 2048 then some stBusy
  else none

/-- HRT_CTL takes effect: a change of RUN, or RST, resets the hart. -/
def hrtCtlApply (s : State) (h : Nat) (val : Word) : State :=
  let was := bit (hrtCtl s h) 15
  let s := setDev s (0xF0010 + 4 * h) 0 (val &&& 0x87FF)
  if bit val.toNat 14 || was != bit val.toNat 15 then hartReset s h else s

/-- HRT_OWN: BUSY while the hart is not OFF, and while a low-power request waits (R363). -/
def hrtOwnCheck (s : State) (h val : Nat) : Option Nat :=
  if (hartOf s h).state ≠ .off ∨ (s.pwr.waiting ∧ val % 16 ≠ hartPart s h) then some stBusy else none

/-! ### Completions (R334, R336, R337) -/

/-- The view whose register write a change finishes. -/
def changeView : Change → Option View
  | .reg v _ _ | .framed v _ _ | .refusedWrite v _ _ | .session v | .capture v _ => some v
  | _ => none

/-- A record finishes a register write of a view. -/
def finishesWrite (v : View) (e : JEntry) : Bool := e.changes.any fun c => changeView c == some v

/-- A view has a register write whose record is not committed yet (R394). -/
def viewWaits (s : State) (v : View) : Bool := (s.jrn.intake ++ s.jrn.waiting).any (finishesWrite v)

/-- The value a load leaves in rd. -/
def loadValue (bytes : Nat) (signed : Bool) (v : Nat) : BitVec 32 :=
  if signed then BitVec.ofInt 32 (sgn (8 * bytes) v) else BitVec.ofNat 32 (v % 2 ^ (8 * bytes))

/-- The number of the request that an instruction waits for. -/
def waitId : HartWait → Nat
  | .load _ _ _ _ id => id
  | .sc _ id => id
  | .amo _ id => id
  | .fetch id => id

/-- A completion finishes the instruction that waits for it: a result, or the fault of Table 14-4 and R334. -/
def finishWait (s : State) (h : Nat) (w : HartWait) (d : BDone) (tval : BitVec 32) : State :=
  let x := { hartOf s h with wait := none }
  let raw := leVal d.data
  match w with
  | .load rd n sg _ _ =>
    if d.status = stOk then setHart s h (retire (setX x rd (loadValue n sg raw)))
    else trap (setHart s h x) h false 5 tval
  | .sc rd _ =>
    if d.status = stOk then setHart s h (retire (setX x rd 0))
    else if d.status = stRefused then setHart s h (retire (setX x rd 1))
    else trap (setHart s h x) h false 7 tval
  | .amo rd _ =>
    if d.status = stOk then setHart s h (retire (setX x rd (BitVec.ofNat 32 raw)))
    else trap (setHart s h x) h false 7 tval
  | .fetch _ =>
    let w := if d.status = stOk then some (BitVec.ofNat 32 raw) else none
    setHart s h { x with prefetch := x.prefetch ++ [(tval, w)] }

/-- One completion of a hart's access: of the instruction that waits, or of the oldest store; a fault of a store is
taken once nothing waits. -/
def finishOne (s : State) (h : Nat) (d : BDone) : State :=
  let x := hartOf s h
  let drop := fun (s : State) => { s with bank := { s.bank with done := s.bank.done.filter (·.id != d.id) } }
  match x.wait with
  | some w => if waitId w = d.id then finishWait (drop s) h w d x.waitAddr else
      (if d.status = stOk then
        match x.store with
        | e :: es => if e.sent = some d.id then setHart (drop s) h { x with store := es } else drop s
        | [] => drop s
      else s)
  | none =>
    match x.store with
    | e :: es =>
      if e.sent = some d.id then
        let s := setHart (drop s) h { x with store := es }
        if d.status = stOk then s else storeFault s h e.addr
      else drop s
    | [] => drop s

/-- A hart at an F1 edge: completions, register stores that have completed, the end of WFI, cycles (R336, R340). -/
def hartEdge (s : State) (h : Nat) : State :=
  if !hartRuns s h || (hartOf s h).state == .off then s
  else
    let due := s.bank.done.filter fun d => d.master == 2 + h && decide (d.due ≤ s.clk.f1)
    let s := due.foldl (fun s d => finishOne s h d) s
    let x := hartOf s h
    let reg := match x.store with
      | e :: _ => e.sent.isSome && decide (e.addr.toNat < 0x40000000) && !viewWaits s (.hart h)
      | [] => false
    let x := { x with mcycle := x.mcycle + 2, store := if reg then x.store.drop 1 else x.store }
    setHart s h (if x.state == .wfi && hartPending s h != 0 then { x with state := .run } else x)

/-! ### Instructions that touch no register view -/

/-- A FENCE that a hart carries out now: with w or o in its predecessor set, or FENCE.TSO, it waits for the store buffer
(R337). -/
def hartFence (s : State) (h : Nat) (pred : BitVec 4) (tso : Bool) : State :=
  let x := hartOf s h
  if x.store.isEmpty || !(tso || pred.getLsbD 0 || pred.getLsbD 2) then setHart s h (retire x) else s

/-- A FENCE.I empties the prefetch buffer (R335). -/
def hartFenceI (s : State) (h : Nat) : State := setHart s h { retire (hartOf s h) with prefetch := [] }

/-- A WFI waits for the store buffer, then stops the hart (R340). -/
def hartWfi (s : State) (h : Nat) : State :=
  let x := hartOf s h
  if x.store.isEmpty then raiseEv (setHart s h { retire x with state := .wfi }) (1876 + h) else s

/-- The interrupt that a hart takes next: the external one before the timer's. -/
def hartInterrupt (s : State) (h : Nat) : Option Nat :=
  if !(hartOf s h).mie then none
  else if (hartPending s h).getLsbD 11 then some 11
  else if (hartPending s h).getLsbD 7 then some 7
  else none

/-- The exception of an access that no port is asked for: misaligned or outside the map (R333, R334). -/
def accessFault (addr : BitVec 32) (n misaligned fault : Nat) : Option Nat :=
  match targetOf addr.toNat n with
  | .misaligned => some misaligned
  | .outside => some fault
  | _ => none

/-- The exception of an atomic access: it lies aligned in a bank (R333, R334). -/
def atomicFault (addr : BitVec 32) (misaligned fault : Nat) : Option Nat :=
  if addr.toNat % 4 ≠ 0 then some misaligned
  else if (bankOf addr.toNat).isNone then some fault
  else none

/-- The exception that the next instruction raises by itself, with its mtval (R333, R334, R339). -/
def hartException (a : HartAct) : Option (Nat × BitVec 32) :=
  match a with
  | .fetchFault a => some (1, a)
  | .exception c v => some (c, v)
  | .load _ a n _ => (accessFault a n 4 5).map fun c => (c, a)
  | .store a n _ => (accessFault a n 6 7).map fun c => (c, a)
  | .lr _ a => (atomicFault a 4 5).map fun c => (c, a)
  | .sc _ a _ _ => (atomicFault a 6 7).map fun c => (c, a)
  | .amo _ _ a _ _ => (atomicFault a 6 7).map fun c => (c, a)
  | _ => none

/-- An exception of the next instruction is taken. -/
def hartTraps (s : State) (h : Nat) (code : Nat) (tval : BitVec 32) : State :=
  if code = 1 then fetchTrap s h tval else trap s h false code tval

/-- FENCE. -/
def execFence (h : Nat) (pred : BitVec 4) (tso : Bool) (s : State) : Result :=
  .next (if hartDoes s h (.fence pred tso) then hartFence s h pred tso else s)

/-- FENCE.I. -/
def execFenceI (h : Nat) (s : State) : Result := .next (if hartDoes s h .fenceI then hartFenceI s h else s)

/-- WFI. -/
def execWfi (h : Nat) (s : State) : Result := .next (if hartDoes s h .wfi then hartWfi s h else s)

/-- HART_TRAP: the exception that the next instruction raises by itself, or the interrupt that is pending and enabled. -/
def execHartTrap (h : Nat) (interrupt : Bool) (code : Nat) (tval : BitVec 32) (s : State) : Result :=
  .next (if !hartReady s h then s
    else if interrupt then (if hartInterrupt s h = some code then trap s h true code 0 else s)
    else if hartException (hartAct s h) = some (code, tval) then hartTraps s h code tval else s)

end Sys2Proof.Machine
end

