-- ==== Sys2Proof/Machine/Chaty.lean ====
section
/-! DEFINITION. Chaty: management requests and their order of service (R324 to R331). -/

namespace Sys2Proof.Machine

/-- Chaty runs: its clock does, outside M11. -/
def chatyUp (s : State) : Bool := s.mode.busUp && s.mode != .m11

/-- STATE of LC_STATE (Table 18-1). -/
def LcState.code : LcState → Nat
  | .raw => 0 | .vtest => 1 | .shipped => 2 | .sealed => 3 | .returned => 4 | .scrap => 5 | .lost => 6

/-- SYS_ID by personality (R31). -/
def sysId (s : State) : Word := if s.fab.pers = 0 then 0x9C19 else BitVec.ofNat 16 (0x7C00 + s.fab.pers)

/-- MGT_FWVER. -/
def fwVersion (s : State) : Word := if s.mgt.updated then s.mgt.fwVer else Config.romVersion

/-- The management codes of Table 15-1. -/
def mgmtCodes : List Nat := [0x0001, 0x0002, 0x0010, 0x0011, 0x0012, 0x0020, 0x0021, 0x0022, 0x0023, 0x0030]

/-- The oldest request of a partition that has not ended. -/
def openReq (s : State) (p : Nat) : Option MReq := (tget [] s.mgt.places p).find? (!·.ended)

/-- The request in service, or the one that enters service next: the oldest of the next partition in turn (R330). -/
def chatyNext (s : State) : Option (Nat × MReq) :=
  match s.mgt.serving with
  | some (p, _) => (openReq s p).map fun m => (p, m)
  | none => ((upto 1 16).map fun k => (s.mgt.lastServed + k) % 16).findSome? fun p => (openReq s p).map fun m => (p, m)

/-- s with the request of a partition that has not ended changed. -/
def setOpenReq (s : State) (p : Nat) (f : MReq → MReq) : State :=
  { s with mgt := { s.mgt with places := tmod [] s.mgt.places p (modServed f) } }

/-- A request ends: its response is written before its DONE entry, whose VALUE holds the bytes written (R331). Nothing
is written to a ring pair that FLR has taken away (R260). -/
def endReq (s : State) (p : Nat) (m : MReq) (status : Nat) (rsp : List Byte) : State :=
  let s := setOpenReq s p fun m => { m with ended := true }
  let s := { s with
    mgt := { s.mgt with serving := none, lastServed := p }
    host := { s.host with reads := s.host.reads.filter fun r => r.what != .request p } }
  let writes := if rsp.isEmpty then [] else [(m.rspAddr, rsp)]
  if m.ring < deadRing then queueCpl s ⟨m.ring, kDone, status, 0, m.tag, rsp.length, 0, 1, writes, [], some p⟩
  else freePlace s p

/-- Service of a request of one code: the checks of R331, the read of the request, then what the code does. The status
of SCRAP applies to every code but INFO and LC_STEP (R376). An RSPLEN above the range of Table 11-5 ends with INVALID
at the same check (DEDUCED, log 119). -/
def serve (s : State) (code : Nat) (p0 : Bool) (reqOk : Nat → Bool) (rspMin : Nat)
    (f : State → Nat → MReq → List Byte → State) : State :=
  match chatyNext s with
  | none => s
  | some (p, m) =>
    if !chatyUp s || m.code != code || m.working then s
    else match m.bytes with
      | some bs => if m.failed then endReq s p m stUe [] else f s p m bs
      | none =>
        if s.mgt.serving.isSome then s
        else
          let s := { s with mgt := { s.mgt with serving := some (p, s.clk.f1) } }
          if (p0 && p != 0) || (s.lc.state == .scrap && code != 0x0001 && code != 0x0021) then endReq s p m stDenied []
          else if !reqOk m.reqLen || decide (m.rspLen < rspMin) || decide (m.rspLen > 65540) then endReq s p m stInvalid []
          else if m.reqLen = 0 then f (setOpenReq s p fun m => { m with bytes := some [] }) p m []
          else hostRead s (.request p) m.reqAddr m.reqLen

/-- The request in service waits for work that other commands finish. -/
def workOn (s : State) (p : Nat) : State := setOpenReq s p fun m => { m with working := true }

/-- The INFO response (R331). -/
def infoBytes (s : State) : List Byte :=
  leBytes 2 (sysId s).toNat ++ leBytes 2 (fwVersion s).toNat ++ leBytes 1 s.lc.state.code ++ leBytes 3 0
    ++ leBytes 16 Config.serial.toNat ++ leBytes 4 s.flash.inc.toNat ++ leBytes 4 0

/-- The SENSE response (R331): the readings are the command's. -/
def senseBytes (s : State) (temp : Int) (power : Nat) : List Byte :=
  leBytes 2 (wrap 16 temp) ++ leBytes 2 s.pwr.vset ++ leBytes 4 power ++ leBytes 8 (sysNow s)

/-- FW_UPDATE (R328): a package that verifies and is not older than the stored one is journaled and stored. -/
def fwUpdate (s : State) (p : Nat) (m : MReq) (pkg : List Byte) : State :=
  match Config.packageVersion pkg with
  | none => endReq s p m stRefused []
  | some v =>
    let older := match s.mgt.stored with
      | some (w, _) => decide (v.toNat < w)
      | none => false
    if older then endReq s p m stRefused []
    else journal (workOn s p) (engRec 0 0 0x16 0x12 stOk v.toNat 0 0) true 1 (.fwUpdate v.toNat pkg)

/-- Every request held in a place ends ABORTED (R327). -/
def abortAll (s : State) : State :=
  (List.range 16).foldl (fun s p => ((tget [] s.mgt.places p).filter (!·.ended)).foldl (fun s m => endReq s p m stAborted []) s) s

/-! ### The commands -/

/-- CHATY_RESET (R327). -/
def execChatyReset (s : State) : Result :=
  .next (if chatyUp s then
      let t := abortAll s
      raiseEv { t with mgt := { t.mgt with restarts := sat 8 (t.mgt.restarts + 1), lastServed := 15 } } 1880
    else s)

/-- INFO (R331). -/
def execInfo (s : State) : Result :=
  .next (serve s 0x0001 false (· == 0) 32 fun s p m _ => endReq s p m stOk (infoBytes s))

/-- SENSE (R331). -/
def execSense (temp : Int) (power : Nat) (s : State) : Result :=
  .next (serve s 0x0002 false (· == 0) 16 fun s p m _ => endReq s p m stOk (senseBytes s temp power))

/-- FW_UPDATE (R328). -/
def execFwUpdate (s : State) : Result :=
  .next (serve s 0x0030 true (fun n => decide (1024 ≤ n ∧ n ≤ 196608)) 0 fwUpdate)

/-- MGMT_TIMEOUT: 1 s after a request entered service (R330). -/
def execMgmtTimeout (s : State) : Result :=
  .next (match s.mgt.serving with
    | some (p, t) =>
      if chatyUp s && passed s t 600000000 then
        match openReq s p with
        | some m => endReq s p m stTimeout []
        | none => s
      else s
    | none => s)

/-- MGMT_CODE_INVALID: the request that enters service has a CODE outside Table 15-1 (R331). -/
def execMgmtCodeInvalid (s : State) : Result :=
  .next (match chatyNext s with
    | some (p, m) => if chatyUp s && !mgmtCodes.contains m.code then endReq s p m stInvalid [] else s
    | none => s)

end Sys2Proof.Machine
end

