-- ==== Sys2Proof/Machine/Flash.lean ====
section
/-! DEFINITION. The flash controller: requests, programs, erases, suspension, bad blocks, quotas, and the maintenance
arbiter's deferred starts (chapter 20, R322, R398). -/

namespace Sys2Proof.Machine

/-! ### Areas and quotas (R409, R411, R419) -/

/-- A partition's quota of user blocks: first block and number. -/
def quotaOf (s : State) (p : Nat) : Nat × Nat :=
  ((dev s (0x90000 + 8 * p) 0).toNat % 2048, (dev s (0x90004 + 8 * p) (if p = 0 then 0x800 else 0)).toNat % 4096)

/-- Base and size of an area as a partition's requests see it. -/
def areaOf (s : State) (p area : Nat) : Nat × Nat :=
  match area with
  | 0 => (0x0B000000 + (quotaOf s p).1 * 0x10000, (quotaOf s p).2 * 0x10000)
  | 1 => (0, 0x05800000)
  | 2 => (0x05800000, 0x05800000)
  | _ => (0x13000000, 0x00200000)

/-- The head of a flash request. -/
structure FlReq where
  area : Nat
  op : Nat
  off : Nat
  len : Nat
  deriving DecidableEq, Repr

/-- The head's fields (R411). -/
def flHead (bs : List Byte) : FlReq :=
  ⟨leVal (bs.take 1), leVal ((bs.drop 1).take 1), leVal ((bs.drop 4).take 4), leVal ((bs.drop 8).take 4)⟩

/-- The response of a flash request that has no data: the cause and what the code adds (R411). -/
def flRsp (cause extra : Nat) : List Byte := leBytes 2 cause ++ leBytes 2 extra

/-- Blocks that a range of the array touches. -/
def blocksOf (a n : Nat) : List Nat := upto (a / 0x10000) ((a + n + 0xFFFF) / 0x10000 - a / 0x10000)

/-- Why a request fails before it reaches the array: status and cause, DENIED before INVALID before BUSY (R430, Table
20-3). `n` bytes are touched; `okOp` and `okRange` are what the request's form asks (Table 20-2). -/
def flCheck (s : State) (p : Nat) (r : FlReq) (n : Nat) (okOp okRange : Bool) : Option (Nat × Nat) :=
  let (b, size) := areaOf s p r.area
  let inside := decide (r.off + n ≤ size)
  let blocks := if inside then blocksOf (b + r.off) n else []
  if !okOp || decide (r.area > 3) || (decide (r.area ≠ 0) && p != 0) then some (stDenied, 1)
  else if blocks.any (badBlock s) then some (stDenied, 3)
  else if !okRange || !inside then some (stInvalid, 2)
  else if r.area = 0 ∧ s.lc.wipe then some (stBusy, 9)
  else if blocks.any fun k => s.flash.pendingBlocks.contains (k - 0xB00) && decide (0xB00 ≤ k) then some (stBusy, 10)
  else none

/-! ### The program path (R412, R413, Table 14-5) -/

/-- A flash program or erase may start: nothing else holds the program path, and no burn runs. -/
def pathFree (s : State) : Bool := s.flash.op.isNone && s.lc.burn.isNone

/-- An erase starts: the begun mark, when the sector has none (R414). -/
def startErase (s : State) (sec more : Nat) (p quota : Option Nat) : State :=
  let s := if halfErased s sec then s else markSector s sec
  { s with flash := { s.flash with
    op := some (.erase sec more p quota), since := s.clk.f1, ran := 0, suspended := false } }

/-- Running time of the erase in F1 cycles (R412, R413). -/
def eraseTime (s : State) : Nat := s.flash.ran + (if s.flash.suspended then 0 else s.clk.f1 - s.flash.since)

/-- The bytes of a sector read erased. -/
def clearSector (s : State) (sec : Nat) : State :=
  { s with flash := { s.flash with
    data := tkeep (fun a => a / 4096 != sec) s.flash.data
    badWords := s.flash.badWords.filter fun w => w / 2048 != sec } }

/-- The next quota erase starts, or waits for the path (R419): bad blocks are left as they are. -/
def nextQuota (s : State) : State :=
  let blocks := s.flash.pendingBlocks.filter fun b => !badBlock s (0xB00 + b)
  let s := { s with flash := { s.flash with pendingBlocks := blocks } }
  match blocks with
  | [] => s
  | b :: _ => if pathFree s then startErase s ((0xB00 + b) * 16) 15 none (some b) else deferTask s .quota

/-- A block joins the runtime table, or the table is full (R417): whether it was added. -/
def markBlock (s : State) (b : Nat) : Bool × State :=
  if s.flash.runtimeBad.length ≥ 512 then
    (false, if s.flash.bbFullSeen then s else raiseEv { s with flash := { s.flash with bbFullSeen := true } } 1714)
  else (true, raiseEv { s with flash := { s.flash with runtimeBad := sins b s.flash.runtimeBad } } 1713)

/-- A request of a partition and a code that Chaty worked on ends. -/
def endWork (s : State) (p code status : Nat) (rsp : List Byte) : State :=
  match openReq s p with
  | some m => if m.working && m.code == code then endReq s p m status rsp else s
  | none => s

/-- The erase of the journal area's next sector starts or waits (R398). -/
def journalErase (s : State) : State :=
  if pathFree s then startErase s (0x13000 + s.flash.nextSector) 0 none none else deferTask s .journalErase

/-- The done mark of a finished sector, and what follows: the next sector of a block, the request's DONE, the next
quota erase, or a ready journal sector. -/
def eraseDone (s : State) : State :=
  match s.flash.op with
  | some (.erase sec more p quota) =>
    let s := markSector (clearSector s sec) sec
    let s := if 0x13000 ≤ sec ∧ sec < 0x13200 then { s with flash := { s.flash with seals := tset [] s.flash.seals (sec - 0x13000) [] } }
      else s
    if more ≠ 0 then startErase s (sec + 1) (more - 1) p quota
    else
      let s := { s with flash := { s.flash with op := none } }
      match p, quota with
      | some q, _ => endWork s q 0x0012 stOk (flRsp 0 0)
      | none, some b =>
        nextQuota { s with flash := { s.flash with pendingBlocks := s.flash.pendingBlocks.filter (· != b) } }
      | none, none =>
        if sec = 0x13000 + s.flash.nextSector then { s with flash := { s.flash with nextReady := true } } else s
  | none => s

/-- The erase has run 8 ms: the sector stays HALF_ERASED and its block is marked bad (R412, R417). -/
def eraseFail (s : State) : State :=
  match s.flash.op with
  | some (.erase sec _ p quota) =>
    let s := { s with flash := { s.flash with op := none } }
    let (added, s) := markBlock s (sec / 16)
    match p, quota with
    | some q, _ => if added then endWork s q 0x0012 stUe (flRsp 7 0) else endWork s q 0x0012 stRefused (flRsp 8 0)
    | none, some b =>
      let rest := s.flash.pendingBlocks.filter (· != b)
      nextQuota { s with flash := { s.flash with pendingBlocks := if added then rest else rest ++ [b] } }
    | none, none =>
      journalErase { s with flash := { s.flash with nextSector := (s.flash.nextSector + 1) % 512 } }
  | none => s

/-! ### Requests (R411, R412) -/

/-- Words of a read, up to the first that fails: the data and the cause (R412). -/
def readWords (s : State) : Nat → Nat → List Byte × Nat
  | _, 0 => ([], 0)
  | a, n + 1 =>
    if halfErased s (a / 4096) then ([], 4)
    else if s.flash.badWords.contains (a / 2) then ([], 6)
    else
      let r := readWords s (a + 2) n
      (flBytes s a 2 ++ r.1, r.2)

/-- The sectors of a journal-area read whose seal is good, one bit each (Table 20-2). -/
def sealBits (s : State) (sec n : Nat) : Nat :=
  total ((List.range (min n 16)).map fun i =>
    let k := sec + i
    let mark := tget [] s.flash.seals k
    place (!mark.isEmpty && mark == Config.cmacSeal k (flBytes s (0x13000000 + 4096 * k) 4096)) i)

/-- A sector is being erased: reads and programs of it wait (R413). -/
def erasing (s : State) (sec : Nat) : Bool :=
  match s.flash.op with
  | some (.erase k _ _ _) => k == sec
  | none => false

/-- FL_READ. -/
def flRead (s : State) (p : Nat) (m : MReq) (bs : List Byte) : State :=
  let r := flHead bs
  let (b, _) := areaOf s p r.area
  let form := decide (2 ≤ r.len ∧ r.len ≤ 65536) && r.off % 2 == 0 && r.len % 2 == 0
    && (r.area != 3 || (r.off % 4096 == 0 && r.len % 4096 == 0))
  match flCheck s p r r.len (r.op == 0) form with
  | some (st, c) => endReq s p m st (flRsp c 0)
  | none =>
    if m.rspLen < 4 + r.len then endReq s p m stInvalid []
    else if (upto ((b + r.off) / 4096) ((b + r.off + r.len + 4095) / 4096 - (b + r.off) / 4096)).any (erasing s) then s
    else
      let (data, c) := readWords s (b + r.off) (r.len / 2)
      let bits := if r.area = 3 then sealBits s (r.off / 4096) (r.len / 4096) else 0
      endReq s p m (if c = 0 then stOk else stUe) (flRsp c bits ++ data)

/-- FL_PROG (R410): a check that fails leaves the flash untouched. -/
def flProg (s : State) (p : Nat) (m : MReq) (bs : List Byte) : State :=
  let r := flHead bs
  let data := bs.drop 16
  let (b, _) := areaOf s p r.area
  let a := b + r.off
  let form := decide (2 ≤ r.len ∧ r.len ≤ 4096) && r.off % 2 == 0 && r.len % 2 == 0
    && r.off / 4096 == (r.off + r.len - 1) / 4096 && data.length == r.len
  match flCheck s p r r.len (r.op == 0 && r.area != 3) form with
  | some (st, c) => endReq s p m st (flRsp c 0)
  | none =>
    if halfErased s (a / 4096) then endReq s p m stUe (flRsp 4 0)
    else if (List.range (r.len / 2)).any fun i =>
        flWord s (a + 2 * i) != 0xFFFF || s.flash.badWords.contains (a / 2 + i) then
      endReq s p m stInvalid (flRsp 5 0)
    else endReq { s with flash := { s.flash with data := setBytes 0xFF s.flash.data a data } } p m stOk (flRsp 0 0)

/-- FL_ERASE with OP 0x01 or 0x02, or an OP that Table 20-2 does not list. -/
def flErase (s : State) (p : Nat) (m : MReq) (bs : List Byte) : State :=
  let r := flHead bs
  let unit := if r.op = 1 then 4096 else 65536
  let (b, _) := areaOf s p r.area
  match flCheck s p r unit ((r.op == 1 || r.op == 2) && r.area != 3) (r.off % unit == 0 && r.len == 0) with
  | some (st, c) => endReq s p m st (flRsp c 0)
  | none => startErase (workOn s p) ((b + r.off) / 4096) (unit / 4096 - 1) (some p) none

/-- FL_ERASE with OP 0x03. -/
def flMark (s : State) (p : Nat) (m : MReq) (bs : List Byte) : State :=
  let r := flHead bs
  let (b, _) := areaOf s p r.area
  match flCheck s p r 65536 (r.area != 3) (r.off % 65536 == 0 && r.len == 0) with
  | some (st, c) => endReq s p m st (flRsp c 0)
  | none =>
    let (added, s) := markBlock s ((b + r.off) / 65536)
    if added then endReq s p m stOk (flRsp 0 0) else endReq s p m stRefused (flRsp 8 0)

/-- A request that programs or erases takes the path, or waits for it (Table 14-5). -/
def onPath (f : State → Nat → MReq → List Byte → State) (s : State) (p : Nat) (m : MReq) (bs : List Byte) : State :=
  if pathFree s && !s.dram.deferred.contains .flash then f s p m bs else deferTask s .flash

/-- The OP of a request's head. -/
def opIs (test : Nat → Bool) (f : State → Nat → MReq → List Byte → State) (s : State) (p : Nat) (m : MReq)
    (bs : List Byte) : State :=
  if test (flHead bs).op then f s p m bs else s

/-- The deferred program or erase of the request in service. -/
def flashGo (s : State) : State :=
  match chatyNext s with
  | some (p, m) =>
    match m.bytes with
    | some bs =>
      if m.working || m.failed then s
      else if m.code = 0x0011 then flProg s p m bs
      else if m.code = 0x0012 then flErase s p m bs
      else s
    | none => s
  | none => s

/-! ### Quotas -/

/-- A quota commit (R419): INVALID for an overlap or a run past block 2,047, BUSY while a flash request of the partition
runs or waits. -/
def quotaCheck (s : State) (p val : Nat) : Option Nat :=
  let b := val / 65536 % 2048
  let n := val % 4096
  let clash := (List.range 16).any fun q =>
    let (c, k) := quotaOf s q
    q != p && n != 0 && k != 0 && decide (b < c + k ∧ c < b + n)
  if clash || (n != 0 && decide (b + n > 2048)) then some stInvalid
  else if (tget [] s.mgt.places p).any fun m => !m.ended && decide (0x0010 ≤ m.code ∧ m.code ≤ 0x0012) then some stBusy
  else none

/-- A quota commit takes effect: blocks that another partition held last become pending (R419). -/
def quotaApply (s : State) (p val : Nat) : State :=
  let b := val / 65536 % 2048
  let n := val % 4096
  let s := setDev (setDev s (0x90000 + 8 * p) 0 (BitVec.ofNat 16 b)) (0x90004 + 8 * p) (if p = 0 then 0x800 else 0) (BitVec.ofNat 16 n)
  let moved := (upto b n).filter fun k => tget 0 s.flash.lastOwner k != p
  let fresh := moved.filter fun k => !badBlock s (0xB00 + k) && !s.flash.pendingBlocks.contains k
  let idle := s.flash.pendingBlocks.isEmpty
  let s := { s with flash := { s.flash with
    lastOwner := tfill 0 p s.flash.lastOwner (upto b n), pendingBlocks := s.flash.pendingBlocks ++ fresh } }
  if idle then nextQuota s else s

/-- FLS_STAT. -/
def flsStat (s : State) : Word :=
  BitVec.ofNat 16 (place s.flash.op.isSome 15 + place (s.flash.op.isSome && s.flash.suspended) 14
    + place (!s.flash.pendingBlocks.isEmpty) 13 + s.flash.runtimeBad.length)

/-! ### Journal spill (R398) -/

/-- The oldest record that flash has not taken, while the flash sink is enabled. -/
def spillNext (s : State) : Option RingRec :=
  if bit (jrnCtl s) 14 then s.jrn.ring.find? (!·.flashTaken) else none

/-- The sector in use is full, or has failed: spill goes on in the next one. -/
def sectorOver (s : State) : Bool := decide (s.flash.curUsed ≥ 128)

/-- n free bytes. -/
def drawBytes : Nat → State → List Byte × State
  | 0, s => ([], s)
  | n + 1, s =>
    let (k, s) := draw s
    let (bs, s) := drawBytes n s
    (Config.freeByte k 0 :: bs, s)

/-- A sector has room for a record, or its successor is erased. -/
def sectorReady (s : State) : Bool := !sectorOver s || s.flash.nextReady

/-- Spill may program now: the path is free or its erase suspended, no burn runs, and a sector is ready. -/
def spillReady (s : State) : Bool :=
  chatyUp s && s.lc.burn.isNone && (s.flash.op.isNone || s.flash.suspended) && sectorReady s

/-- Spill moves to the next sector when the one in use is over. -/
def spillSector (s : State) : State :=
  if sectorOver s then
    { s with flash := { s.flash with
      curSector := s.flash.nextSector, curUsed := 0, nextSector := (s.flash.nextSector + 1) % 512, nextReady := false } }
  else s

/-- The record that flash has taken, in the ring. -/
def flashTakes (s : State) (seq : Nat) : State :=
  let ring := s.jrn.ring.map fun x => if x.seq = seq then { x with flashTaken := true } else x
  sweepRing { s with jrn := { s.jrn with ring := ring }
                     flash := { s.flash with topSeq := some (max seq (s.flash.topSeq.getD 0)) } }

/-- A record goes to flash; a full sector gets its seal; the erase of the next sector starts after a sector's first
record. A record that does not read back correct is not taken, and spill moves to the next sector (R398). -/
def spillRecord (s : State) (r : RingRec) (ok : Bool) : State :=
  let s := spillSector s
  let sec := s.flash.curSector
  let used := s.flash.curUsed
  let (bs, s) := if ok then (leBytes 32 r.bytes.toNat, s) else drawBytes 32 s
  let s := { s with flash := { s.flash with
    data := setBytes 0xFF s.flash.data (0x13000000 + 4096 * sec + 32 * used) bs
    curUsed := if ok then used + 1 else 128 } }
  let s := if ok then flashTakes s r.seq else raiseEv { s with jrn := { s.jrn with spillErr := true } } 1858
  let s := if ok && used == 127 then
      { s with flash := { s.flash with
        seals := tset [] s.flash.seals sec (Config.cmacSeal sec (flBytes s (0x13000000 + 4096 * sec) 4096)) } }
    else s
  if used = 0 then (if s.flash.op.isSome then deferTask s .journalErase else journalErase s) else s

/-! ### The commands -/

/-- FL_READ. -/
def execFlRead (s : State) : Result := .next (serve s 0x0010 false (· == 16) 4 flRead)

/-- FL_PROG. -/
def execFlProg (s : State) : Result :=
  .next (serve s 0x0011 false (fun n => decide (18 ≤ n ∧ n ≤ 4112)) 4 (onPath flProg))

/-- SECTOR_ERASE: FL_ERASE with OP 0x01; an OP of no other command ends here too. -/
def execSectorErase (s : State) : Result :=
  .next (serve s 0x0012 false (· == 16) 4 (opIs (fun o => o != 2 && o != 3) (onPath flErase)))

/-- BLOCK_ERASE: FL_ERASE with OP 0x02. -/
def execBlockErase (s : State) : Result := .next (serve s 0x0012 false (· == 16) 4 (opIs (· == 2) (onPath flErase)))

/-- MARK_BAD: FL_ERASE with OP 0x03. -/
def execMarkBad (s : State) : Result := .next (serve s 0x0012 false (· == 16) 4 (opIs (· == 3) flMark))

/-- ERASE_DONE: a running erase completes within its 8 ms. -/
def execEraseDone (s : State) : Result :=
  .next (if s.flash.op.isSome && !s.flash.suspended && decide (eraseTime s ≤ 4800000) then eraseDone s else s)

/-- ERASEFAIL: 8 ms of running time have passed. -/
def execErasefail (s : State) : Result :=
  .next (if s.flash.op.isSome && !s.flash.suspended && decide (eraseTime s ≥ 4800000) then eraseFail s else s)

/-- ERASE_SUSPEND: a spill waits and the erase has run 500 µs since it started or resumed (R413). -/
def execEraseSuspend (s : State) : Result :=
  .next (if s.flash.op.isSome && !s.flash.suspended && (spillNext s).isSome && sectorReady s && passed s s.flash.since 300000 then
      { s with flash := { s.flash with suspended := true, ran := eraseTime s, since := s.clk.f1 } }
    else s)

/-- ERASE_RESUME: the spill has finished its sector, or 1 ms has passed (R413). -/
def execEraseResume (s : State) : Result :=
  .next (if s.flash.op.isSome && s.flash.suspended && (sectorOver s || passed s s.flash.since 600000) then
      { s with flash := { s.flash with suspended := false, since := s.clk.f1 } }
    else s)

/-- JOURNAL_SPILL. -/
def execJournalSpill (ok : Bool) (s : State) : Result :=
  .next (match spillNext s with
    | some r => if spillReady s then spillRecord s r ok else s
    | none => s)

/-- The resource of a deferred activity is free. -/
def taskFree (s : State) : Activity → Bool
  | .scrub k _ => !scrubDeferred s k && scrubAccess s k
  | .frameRepair _ => !flashRuns s
  | .flash | .quota | .journalErase => pathFree s

/-- A deferred activity starts. -/
def startTask (s : State) : Activity → State
  | .scrub k sense => scrubVisit s k sense true
  | .frameRepair k => repairDeferred s k
  | .flash => flashGo s
  | .quota => nextQuota s
  | .journalErase => journalErase s

/-- DEFERRED_START: the oldest deferred activity whose resource is free starts (R322). -/
def execDeferredStart (s : State) : Result :=
  .next (match pick (taskFree s) s.dram.deferred with
    | some (a, rest) => startTask { s with dram := { s.dram with deferred := rest } } a
    | none => s)

end Sys2Proof.Machine
end

