-- ==== Sys2Proof/Machine/Journal.lean ====
section
/-! DEFINITION. The change journal: records, the ring and its shares, the host sink (R391 to R399). -/

namespace Sys2Proof.Machine

/-! ### Records (Table 19-1) -/

/-- The first 28 bytes of a record. -/
def recordHead (e : JEntry) (seq : Nat) : List Byte :=
  let r := e.record
  leBytes 4 seq ++ leBytes 8 r.sys ++ leBytes 2 (r.cls % 16 * 4096 + r.part % 16 * 256 + r.idx % 256)
    ++ leBytes 2 (place (decide (e.count > 1)) 15 + r.kind % 128 * 256 + r.status % 256)
    ++ leBytes 4 r.obj ++ leBytes 4 (if e.count > 1 then e.count else r.old) ++ leBytes 4 r.new

/-- A record with its CHAIN over the previous one (R391). -/
def recordBits (e : JEntry) (seq : Nat) (prev : BitVec 256) : BitVec 256 :=
  let h := recordHead e seq
  BitVec.ofNat 256 (leVal (h ++ leBytes 4 (crc32 (leBytes 32 prev.toNat ++ h))))

/-! ### The ring (R396) -/

/-- Journal ring places. -/
abbrev ringPlaces : Nat := 8192

/-- Records that stand in the reserved places. -/
def reservedUsed (s : State) : Nat := (s.jrn.ring.filter (·.reserved)).length

/-- Newly full shares raise JRN_FULL (R396). -/
def noteFull (s : State) : State :=
  if !sinkOn s then s
  else
    let now := fullShares s
    let fresh := now.filter fun p => !s.jrn.full.contains p
    let s := { s with jrn := { s.jrn with full := now } }
    fresh.foldl (fun s _ => raiseEv s 1856) s

/-- A record enters the ring with the next SEQ. With no sink enabled it overwrites the oldest of a full ring. -/
def storeRecord (s : State) (e : JEntry) (reserved : Bool) : State :=
  let bits := recordBits e s.jrn.seq s.jrn.prev
  let rec_ : RingRec := ⟨s.jrn.seq, e.record.part, bits, reserved, false, false, false⟩
  let ring := s.jrn.ring ++ [rec_]
  let ring := if !sinkOn s && decide (ring.length > ringPlaces) then ring.drop 1 else ring
  let s := { s with jrn := { s.jrn with
    ring := ring, seq := (s.jrn.seq + 1) % 2 ^ 32, prev := bits, lastSeq := some s.jrn.seq
    live := { s.jrn.live with committed := sat 32 (s.jrn.live.committed + 1) } } }
  fillJbufs (noteFull s)

/-- A record that found no place is lost: the missed count rises, JRN_MISSED at the first loss (R396). -/
def loseRecord (s : State) : State :=
  let first := s.jrn.missedCount == 0
  let s := { s with jrn := { s.jrn with
    missedCount := s.jrn.missedCount + 1, missed := true
    live := { s.jrn.live with missed := sat 16 (s.jrn.live.missed + 1) } } }
  if first then raiseEv s 1857 else s

/-- The record ends a LOAD_START or a SWAP, for which a place is held (R396). -/
def endsRecord (r : JRec) : Bool := r.kind == 5 || r.kind == 7

/-- A place held for an ending record is given up. -/
def releasePlace (s : State) (p : Nat) : State :=
  { s with jrn := { s.jrn with heldPlaces := tset 0 s.jrn.heldPlaces p (tget 0 s.jrn.heldPlaces p - 1) } }

/-- The views of a partition (R26, R45). -/
def viewsOf (s : State) (p : Nat) : List View :=
  ([View.pf0, .side, .jtag] ++ (upto 1 15).map View.vf ++ (List.range 4).map View.hart).filter fun v => viewPart s v == p

/-- A refusal with JOURNAL_FULL sets SYS_REGERR.JFL in the views of its partition (R396). -/
def noteJfl (s : State) (p : Nat) : State :=
  (viewsOf s p).foldl (fun s v => setVw s v 0x8 0 (vw s v 0x8 0 ||| 0x2000)) s

/-- A change of a partition is refused with JOURNAL_FULL: it is counted (R396). -/
def journalFull (s : State) (p : Nat) : State :=
  noteJfl { s with jrn := { s.jrn with live := { s.jrn.live with refusals := sat 16 (s.jrn.live.refusals + 1) } } } p

/-- An intake entry is committed: whether its change may take effect, and s (R396). -/
def commitRecord (s : State) (e : JEntry) : Bool × State :=
  let p := e.record.part
  if e.refusable then
    if !sinkOn s || decide (shareUsed s p + e.need ≤ jrnShare s p) then
      let held := tset 0 s.jrn.heldPlaces p (tget 0 s.jrn.heldPlaces p + (e.need - 1))
      (true, storeRecord { s with jrn := { s.jrn with heldPlaces := held } } e false)
    else (false, journalFull s p)
  else
    let s := if endsRecord e.record then releasePlace s p else s
    if !sinkOn s || decide (shareUsed s p < jrnShare s p) then (true, storeRecord s e false)
    else if reservedUsed s < 64 ∧ s.jrn.ring.length < ringPlaces then (true, storeRecord s e true)
    else (true, loseRecord s)

/-- The MISSED record that the next commit writes once a place is free (R396). -/
def missedEntry (s : State) : Option JEntry :=
  let share := decide (shareUsed s 0 < jrnShare s 0)
  if s.jrn.missedCount = 0 ∨ !(share || decide (reservedUsed s < 64 ∧ s.jrn.ring.length < ringPlaces) || !sinkOn s) then none
  else some ⟨{ engRec 7 0 0 0x14 stOk 0 s.jrn.missedCount 0 with sys := sysNow s }, 1, false, 1, [.done]⟩

/-- The oldest intake entry leaves; the oldest waiting record takes the free place, and with it its SYSTIME (R391,
R395). -/
def popIntake (s : State) : State :=
  let j := s.jrn
  let enters := (j.waiting.take 1).map fun e => { e with record := { e.record with sys := sysNow s } }
  { s with jrn := { j with intake := j.intake.drop 1 ++ enters, waiting := j.waiting.drop 1 } }

/-- Before a reset the intake's records are committed; their changes have nothing left to act on (R373, R399). -/
def flushIntake (s : State) : State := s.jrn.intake.foldl (fun s e => (commitRecord s e).2) s

/-- JRN_STAT, JRN_USED. -/
def jrnStat (s : State) : Word :=
  BitVec.ofNat 16 (place (sinkOn s && !(fullShares s).isEmpty) 15 + place s.jrn.missed 14 + place s.jrn.spillErr 13)
def jrnUsed (s : State) : Word := BitVec.ofNat 16 s.jrn.ring.length

/-- JRN_SHARE: a sum above 8,128 INVALID, a share below the partition's records BUSY. -/
def jrnShareCheck (s : State) (p val : Nat) : Option Nat :=
  let n := val % 16384
  if total ((List.range 16).map fun q => if q = p then n else jrnShare s q) > 8128 then some stInvalid
  else if n < shareUsed s p then some stBusy
  else none

/-- The oldest JDRAIN buffer is full, or its first record is FLUSH milliseconds old (R397). -/
def jbufDue (s : State) (b : JBuf) : Bool :=
  !b.recs.isEmpty && (decide (b.cap ≤ b.recs.length)
    || (jrnCtl s % 256 != 0 && passed s b.opened (jrnCtl s % 256 * 600000)))

/-- JDRAIN_CLOSE: the oldest buffer closes; its JRN entry follows the writes of its records (R397). -/
def execJdrainClose (s : State) : Result :=
  .next (match s.jrn.buffers with
    | b :: bs =>
      if jbufDue s b then
        let s := { s with jrn := { s.jrn with buffers := bs } }
        let data := b.recs.flatMap fun r => leBytes 32 r.2.toNat
        queueCpl s ⟨b.ring, kJrn, stOk, 0, b.tag, (b.recs.head?.map (·.1)).getD 0, b.recs.length, 1, [(b.addr, data)],
          b.recs.map (·.1), none⟩
      else s
    | [] => s)

end Sys2Proof.Machine
end

