-- ==== Sys2Proof/Machine/Power.lean ====
section
/-! DEFINITION. Power, resets and wake: supplies, the regulator, reset reach, reset release, partition reset, pad hold,
low-power entry and wake (chapter 17, R377, R399, R415). -/

namespace Sys2Proof.Machine

/-! ### Reset reach (Table 17-4) -/

/-- Low-power entry waits or is in progress (PWR_MODE.PEND). -/
def pwrPend (s : State) : Bool := s.pwr.waiting || s.pwr.entry.isSome

/-- Always-on registers: PWR_WAKE and PWR_ALARM. -/
def alwaysOn (off : Nat) : Bool := off == 0xC0008 || off == 0xC000C || off == 0xC0010

/-- The flash controller's state through a reset: an erase in progress is aborted (R415). -/
def flashAbort (f : Flash) : Flash :=
  { f with op := none, suspended := false, ran := 0, since := 0, pendingBlocks := [], lastOwner := []
           aborted := f.aborted || f.op.isSome }

/-- All core state at reset in a mode; OTP, flash, DRAM contents, always-on registers, the pads' outside levels and the
model's own records stay. -/
def coldState (s : State) (m : Mode) : State :=
  { mode := m
    last := s.mode
    clk := { refFault := s.clk.refFault, refAbsent := s.clk.refAbsent }
    tap := { s.tap with acc := if s.tap.acc.inProgress then endAccess s.tap.acc stAborted s.tap.acc.data else s.tap.acc }
    regs := tkeep alwaysOn s.regs
    pwr := { s.pwr with
      target := 5, waiting := false, entry := none, entryAt := 0, entryStep := 0, releasing := 0, wakeArmed := none, vset := 700, avs := none, coreEn := true
      cfgErr := false, wakePins := [], wakeDue := false, deepWake := false }
    jrn := { seq := s.jrn.seq, lastSeq := s.jrn.lastSeq, bootOld := s.jrn.lastSeq.getD 0xFFFFFFFF }
    dram := { data := s.dram.data }
    mgt := { stored := s.mgt.stored }
    pins := { pin := (s.pins.pin.filter (·.2.level)).map fun e => (e.1, { level := true }), vstat := s.pins.vstat }
    lc := { steps := s.lc.steps, tokens := s.lc.tokens, state := s.lc.state, burn := s.lc.burn, wipe := s.lc.wipe
            keys := s.lc.keys }
    flash := flashAbort s.flash
    outs := s.outs
    freeCtr := s.freeCtr
    pending := s.pending }

/-- PWR_RSTCAUSE with a bit set. -/
def withCause (s : State) (n : Nat) : State :=
  { s with pwr := { s.pwr with rstCause := s.pwr.rstCause ||| BitVec.ofNat 16 (2 ^ n) } }

/-- Device reset (R370): the intake's records are committed first, and pad hold is released. -/
def deviceReset (s : State) (cause : Nat) : State :=
  let s := withCause (coldState (flushIntake s) .m1) cause
  { s with pwr := { s.pwr with held := 0, padLatch := [], releasing := 0 } }

/-- Power-on reset (R370): always-on registers too; DRAM contents as far as VDDQ held; SEQ starts above the highest in
flash (R399). -/
def powerOnReset (s : State) (vddqHeld failed : Bool) : State :=
  let t := coldState s .m1
  { t with
    last := .m0
    tap := {}
    regs := []
    pwr := { rstCause := if failed then 0x8400 else 0x8000 }
    jrn := { seq := match s.flash.topSeq with
        | some n => (n + 8320) % 2 ^ 32
        | none => 0 }
    dram := { data := if vddqHeld then t.dram.data else [] } }

/-- Power is lost during a burn: the step word stays partly burnt, neither blank nor complete; a token word counts as
consumed all the same (R377, R389). -/
def cutBurn (s : State) : State :=
  match s.lc.burn with
  | some (.step w _) => { s with lc := { s.lc with burn := none, steps := tset 0 s.lc.steps w 0x00FF } }
  | some (.token w) => { s with lc := { s.lc with burn := none, tokens := tset 0 s.lc.tokens w 0x00FF } }
  | none => s

/-- Supplies are lost: M0. -/
def supplyLoss (s : State) : State :=
  let t := powerOnReset (cutBurn s) false false
  { t with mode := .m0, pwr := { t.pwr with vauxOk := false } }

/-! ### Reset release (R155, R377, R399) -/

/-- A step word as the read at reset release finds it: blank, complete, or neither. -/
def stepWord (s : State) (bad : List Nat) (i : Nat) : Option Bool :=
  let w := tget 0 s.lc.steps i
  if bad.contains i then none else if w = 0 then some false else if w = 0xFFFF then some true else none

/-- The number of complete words among words 0 to 29. -/
def stepCount (s : State) (bad : List Nat) : Nat := ((List.range 30).filter fun i => stepWord s bad i == some true).length

/-- The life-cycle state that the step words spell (R377). -/
def decodeSteps (s : State) (bad : List Nat) : LcState :=
  if (List.range 32).any fun i => (stepWord s bad i).isNone then .lost
  else if (List.range 29).any fun i => stepWord s bad i == some false && stepWord s bad (i + 1) == some true then .lost
  else if stepWord s bad 31 = some true then .scrap
  else if stepWord s bad 30 = some true then .returned
  else
    let n := stepCount s bad
    if n = 0 then .raw else if n = 1 then .vtest else if n % 2 = 0 then .shipped else .sealed

/-- Chaty's firmware: the stored update when it passes its check, else the ROM (R324, R328). -/
def bootChaty (s : State) : State :=
  let v := s.mgt.stored.bind fun e => Config.packageVersion e.2
  { s with mgt := { s.mgt with updated := v.isSome, rom := v.isNone, fwVer := v.getD 0 } }

/-- The flash controller at reset release: half-erased sectors and an aborted operation are reported, sectors of the
system area are recovered, and the journal area's next sector is erased again where that was cut short (R415, R416). -/
def bootFlash (s : State) : State :=
  let half := (s.flash.status.map (·.1)).filter (halfErased s)
  let s := if half.isEmpty then s else raiseEv s 1712
  let s := if s.flash.aborted then raiseEv { s with flash := { s.flash with aborted := false } } 1715 else s
  let s := (half.filter fun k => decide (0x13200 ≤ k)).foldl (fun s k => markSector (clearSector s k) k) s
  if s.flash.curUsed > 0 ∧ !s.flash.nextReady then journalErase s else s

/-- The BOOT record (R399). -/
def bootRecord (s : State) : State :=
  journal s (engRec 7 0 0 0x13 stOk s.pwr.rstCause.toNat s.jrn.bootOld s.flash.inc.toNat) false 1 .done

/-- Reset is released: clocks and SYSTIME start at a slot edge, the life cycle is read, the incarnation number rises,
and the mode path of Table 1-4 is taken. -/
def resetRelease (s : State) (vccio : BitVec 32) (bad : List Nat) : State :=
  let s := { s with
    clk := { s.clk with started := true, boundaryDue := true }
    pins := { s.pins with vstat := vccio }
    flash := { s.flash with inc := s.flash.inc + 1 }
    lc := { s.lc with state := decodeSteps s bad }
    pwr := { s.pwr with deepWake := false } }
  let s := bootRecord (bootFlash (bootChaty s))
  match s.lc.state with
  | .lost => enterMode s .m11
  | .scrap => enterMode (clearDevice s) .m2
  | _ => powerUpLoad s

/-! ### Partition reset (R371) -/

/-- The transfers of a partition's queues go, without completion, and their booked positions with them. -/
def dropPartition (s : State) (p : Nat) : State :=
  let gone := s.qe.xfers.filter fun x => x.sub.part == p
  let s := gone.foldl (fun s x => x.legs.foldl returnBuf s) s
  let s := { s with
    qe := { s.qe with xfers := s.qe.xfers.filter fun x => x.sub.part != p }
    host := { s.host with reads := s.host.reads.filter fun r => match r.what with
      | .src t => !(gone.any (·.tid == t))
      | _ => true } }
  gone.foldl (fun s x => x.legs.foldl (fun s l => drainIfEmpty s l.qid) s) s

/-- A region's user state, as R371 resets it. -/
def resetRegion (s : State) (r : Nat) : State := initRegion s r true

/-- A partition's commit groups: scheduled swaps end CANCELLED, staged regions return to IDLE (R172). -/
def resetGroups (s : State) (p : Nat) : State :=
  (List.range 4).foldl (fun s cg => clearGroup (swapCancelNow s p cg) p cg) s

/-- Partition reset. -/
def partitionReset (s : State) (p : Nat) : State :=
  let s := ((configured s.fab.active).filter fun r => regionPart s r == p).foldl resetRegion s
  let s := ((List.range 4).filter fun h => hartPart s h == p).foldl hartReset s
  let s := dropPartition s p
  let s := flrActions s p
  let s := if p = 0 then endViewLoad s 0x14 stAborted else s
  let s := resetGroups s p
  let s := { s with framed := s.framed.filter fun w => viewPart s w.view != p }
  ((List.range 192).filter fun k => segPart s k == p).foldl segRestart s

/-- PWR_PRST: BUSY once low-power entry has begun. -/
def prstCheck (s : State) : Option Nat := if s.pwr.entry.isSome then some stBusy else none

/-! ### PWR_MODE (R17, R19, R363) -/

/-- A write of PRT_EN or of a hart owner waits for its record. -/
def ownerWaits (s : State) : Bool :=
  (s.jrn.intake ++ s.jrn.waiting).any fun e => e.changes.any fun c => match c with
    | .reg _ off _ => off == 0x20004 || decide (0xF0000 ≤ off ∧ off < 0xF0010)
    | _ => false

/-- Why a PWR_MODE write is refused, INVALID before BUSY. -/
def pwrModeCheck (s : State) (val : Nat) : Option Nat :=
  let t := val % 16
  if t = 7 ∨ t = 8 ∨ t = 9 then
    if s.mode ≠ .m5 then some stInvalid
    else if s.pwr.entry.isSome || anyCapture s || ownerWaits s then some stBusy
    else none
  else if t = 5 then
    if s.mode ≠ .m5 ∧ s.mode ≠ .m7 then some stInvalid
    else if s.pwr.entry.isSome then some stBusy
    else none
  else some stInvalid

/-- A PWR_MODE write takes effect: a request, its cancellation, or a wake from M7. -/
def pwrModeApply (s : State) (val : Nat) : State :=
  let t := val % 16
  if t = 5 then
    { s with pwr := { s.pwr with
      target := 5, waiting := false
      wakeArmed := if s.mode = .m7 then some (s.pwr.wakeArmed.getD .pf0) else s.pwr.wakeArmed } }
  else { s with pwr := { s.pwr with target := t, waiting := true } }

/-- PWR_MODE and PWR_STAT as they read. -/
def pwrModeWord (s : State) : Word := BitVec.ofNat 16 (place (pwrPend s) 15 + s.pwr.target)
def pwrStatWord (s : State) : Word :=
  let w := match s.pwr.wakeCause with
    | none => 0 | some .smbus => 1 | some .pin => 2 | some .alarm => 3 | some .pf0 => 4
  BitVec.ofNat 16 (w * 4096 + s.pwr.lastLow * 256 + place s.pwr.replay 7 + place s.pwr.avsFail 6)

/-- PWR_PAD_RELEASE: held groups written with 1 are released at the next F8 edge (R369). -/
def padRelease (s : State) (val : Word) : State :=
  { s with pwr := { s.pwr with releasing := s.pwr.releasing ||| (s.pwr.held &&& val) } }

/-- The F8 edge that releases groups: their pads follow their functions again (R369). -/
def padsFreed (s : State) : State :=
  if s.clk.f1 % 8 ≠ 0 ∨ s.pwr.releasing = 0 then s
  else
    let held := s.pwr.held &&& ~~~s.pwr.releasing
    { s with pwr := { s.pwr with
      held := held, releasing := 0, padLatch := tkeep (fun p => held.getLsbD (p / 16)) s.pwr.padLatch } }

/-! ### Entry (Table 17-3) -/

/-- The IMODE under which a pin wakes: function 7, WAKE, a group in a class; 0 for a pin that does not (R344, R353). -/
def wakeMode (s : State) (p : Nat) : Nat :=
  let x := pinOf s p
  if x.func == 7 && bit x.cfg.toNat 8 && groupUp s (p / 16) then fld x.cfg.toNat 11 9 else 0

/-- A pin's detector under an IMODE finds its condition: an edge since entry began, or a level (R353). -/
def wakeMet (s : State) (p m : Nat) : Bool :=
  match m with
  | 1 => (pinOf s p).edge == some true
  | 2 => (pinOf s p).edge == some false
  | 3 => (pinOf s p).edge.isSome
  | 4 => padLevel s p
  | 5 => !padLevel s p
  | _ => false

/-- A wake pin meets its IMODE condition: as the pin is configured, in M8 and M9 as it was when the core stopped (R353,
R365). -/
def wakePin (s : State) (p : Nat) : Bool :=
  if s.mode == .m8 || s.mode == .m9 then s.pwr.wakePins.any fun e => e.1 == p && wakeMet s p e.2
  else wakeMet s p (wakeMode s p)

/-- s with no edge seen at any pin. -/
def clearEdges (s : State) : State :=
  { s with pins := { s.pins with pin := s.pins.pin.map fun e => (e.1, { e.2 with edge := none }) } }

/-- Enqueue operations that have not started are decided in the order in which they would start, with their number as
fuel. -/
def admitRest : Nat → State → State
  | 0, s => s
  | n + 1, s =>
    match nextOperation s with
    | some o => admitRest n (decideOp s o)
    | none => s

/-- Every enqueue operation is decided: those started, then the rest. -/
def admitAll (n : Nat) (s : State) : State :=
  admitRest n (s.qe.ops.foldl decideOp { s with qe := { s.qe with ops := [] } })

/-- Every undelivered promised leg is reported LATE with cause POWER, and the transfers that have ended their FINAL. -/
def powerLate (s : State) : State :=
  let s := s.qe.xfers.foldl (fun s x => x.legs.foldl (fun s l =>
    if l.cls = 1 ∧ l.ending = .running then
      match xferOf s x.tid with
      | some y => reportLate s y l .power
      | none => s
    else s) s) s
  (s.qe.xfers.map (·.tid)).foldl (fun s t =>
    match xferOf s t with
    | some x => if xferEnded x && !x.finalled && x.legs.any (fun l => l.ending == .late .power) then finalize s x else s
    | none => s) s

/-- Completion entries are written while the host is still there. -/
def writeAll : Nat → State → State
  | 0, s => s
  | n + 1, s => writeAll n (writeCompletion s)

/-- The mode that a TARGET asks for. -/
def lowMode (target : Nat) : Mode := if target = 7 then .m7 else if target = 8 then .m8 else .m9

/-- Entry begins (Table 17-3, step 1): from here on it completes, or ends back in M5. Always-on logic sees edges from now
on. -/
def entryStart (s : State) : State :=
  let s := clearEdges s
  { s with pwr := { s.pwr with
    waiting := false, replay := false, wakeCause := none, wakeArmed := none, prevLast := s.last
    entry := some (lowMode s.pwr.target), entryAt := s.clk.f1, entryStep := 1 } }

/-- Entry has taken a step of Table 17-3. -/
def setStep (s : State) (n : Nat) : State := { s with pwr := { s.pwr with entryStep := n } }

/-- A low-power mode is reached. -/
def reached (s : State) (n : Nat) : State :=
  { s with pwr := { s.pwr with entry := none, entryStep := 0, lastLow := n, lowSince := s.clk.f1 } }

/-- Step 3: admission refuses every submission, every undelivered promised transfer is reported LATE, and its completion
is written. -/
def entryLate (s : State) : State :=
  let ops := total (s.qe.xfers.map fun x => x.undecided.length)
  let s := powerLate (admitAll ops (setStep s 3))
  writeAll s.host.cpl.length s

/-- Step 4: every pad latches; segment ports, links and the PCIe link go down; DRAM enters self-refresh. -/
def entryHold (s : State) : State :=
  let groups := (List.range 16).filter (groupUp s)
  let latch := (List.range 256).foldl (fun t p => if groupUp s (p / 16) then tset {} t p (padDrive s p) else t)
    s.pwr.padLatch
  let s := setStep { s with pwr := { s.pwr with
    held := BitVec.ofNat 16 (total (groups.map fun g => 2 ^ g)), padLatch := latch, releasing := 0 } } 4
  let s := (List.range 192).foldl segRestart s
  let s := hostLost (linksOff s)
  { s with dram := { s.dram with
    ch0 := { s.dram.ch0 with selfRefresh := true }, ch1 := { s.dram.ch1 with selfRefresh := true } } }

/-- Steps 5 and 6: every core clock stops, always-on logic keeps how the wake pins are configured, and VCORE is changed or
switched off. No F1 edge lies between the two (DESIGN
CHOICE, log 79). -/
def entryStops (s : State) (m : Mode) : State :=
  let pins := ((List.range 256).filter (wakeMode s · != 0)).map fun p => (p, wakeMode s p)
  let s := { s with pwr := { s.pwr with wakePins := pins } }
  if m = .m8 then
    let s := setMode (setStep s 6) .m8
    emit { s with pwr := { s.pwr with avs := some ⟨500, 1, .enterM8⟩ } } (.avsWrite 500)
  else
    let armed := s.pwr.wakeArmed
    let s := coldState (flushIntake s) .m9
    reached { s with pwr := { s.pwr with coreEn := false, wakePins := pins, wakeArmed := armed } } 9

/-- Low-power entry at an F1 edge: the step of Table 17-3 whose time has come. -/
def entryTick (s : State) : State :=
  let past := fun n => passed s s.pwr.entryAt n
  match s.pwr.entry, s.pwr.entryStep with
  | some m, 1 =>
    if s.clk.f1 % 8 ≠ 0 then s else if m = .m7 then reached (setMode s .m7) 7 else setStep s 2
  | some _, 2 => if past 6000 then entryLate s else s
  | some _, 3 => if past 12000 then entryHold s else s
  | some m, 4 => if past 15000 then entryStops s m else s
  | _, _ => s

/-! ### Wake (R365 to R368) -/

/-- The low-power modes, once reached. -/
def asleep (s : State) : Bool := (s.mode == .m7 || s.mode == .m8 || s.mode == .m9) && s.pwr.entry.isNone

/-- A wake source fires: the first counts; one that fires during entry is latched and replayed (R367). -/
def armWake (s : State) (c : WakeCause) : State :=
  if s.pwr.wakeArmed.isSome then s
  else if asleep s then { s with pwr := { s.pwr with wakeArmed := some c } }
  else if s.pwr.entry.isSome then { s with pwr := { s.pwr with wakeArmed := some c, replay := true } }
  else s

/-- PWR_WAKE and PWR_ALARM. -/
def pwrWake (s : State) : Nat := (dev s 0xC0008 0).toNat
def pwrAlarm (s : State) : Nat := (dev s 0xC000C 0).toNat * 65536 + (dev s 0xC0010 0).toNat

/-- The wake's cause is recorded, and event WAKE will follow M5. -/
def recordWake (s : State) : State :=
  { s with pwr := { s.pwr with wakeCause := s.pwr.wakeArmed, wakeArmed := none, wakeDue := true } }

/-- M5 after M8: SYSTIME resumes at a slot edge, later by the counted time rounded up to slots (R368). The count of F1
edges, and with it every divider phase, goes on from where entry began (DESIGN CHOICE, log 103). -/
def afterSleep (s : State) : State :=
  let (n, s) := draw s
  let t := cdiv (s.clk.systime + Config.sleepTime n) 1000 * 1000
  let s := { s with
    clk := { s.clk with systime := t, k := 0, slotLen := 600, boundaryDue := isBoundary s t }
    dram := { s.dram with ch0 := { s.dram.ch0 with selfRefresh := false }, ch1 := { s.dram.ch1 with selfRefresh := false } }
    pwr := { s.pwr with avs := none, vset := 700 }
    lc := { s.lc with chal := s.lc.chal.map fun c => { c with expires := c.expires - Config.sleepTime n * 3 / 5 } } }
  let s := pinsSettle (swapsMissed ((List.range 192).foldl segRestart (enterMode s .m5)) t)
  if s.clk.boundaryDue then s else slotStart s

/-- A VCORE change is complete (R360). -/
def avsDone (s : State) (c : AvsChange) : State :=
  match c.why with
  | .setpoint => { s with pwr := { s.pwr with avs := none, vset := c.mv } }
  | .enterM8 => reached { s with pwr := { s.pwr with avs := none } } 8
  | .wakeM8 => afterSleep s
  | .wakeAbort =>
    let s := afterSleep s
    { s with last := s.pwr.prevLast }

/-- The third attempt of a VCORE change has failed (R361, R364, R367). -/
def avsFailed (s : State) (c : AvsChange) : State :=
  match c.why with
  | .setpoint => raiseEv { s with pwr := { s.pwr with avs := none, avsFail := true } } 1810
  | .enterM8 =>
    let s := recordWake s
    emit { s with pwr := { s.pwr with avs := some ⟨700, 1, .wakeAbort⟩, avsFail := true, entry := none, entryStep := 0 } } (.avsWrite 700)
  | .wakeM8 | .wakeAbort => powerOnReset s true true

/-! ### The commands -/

/-- A supply monitor that is not masked (R358): 0 VAUX, 1 VCORE, 2 VDDQ, 3 VSD, 4 VSDH, 5 + g VCCIO of group g. -/
def monitored (s : State) (m : Nat) : Bool :=
  let masked := s.mode == .m9 && (m == 1 || m == 3 || m == 4)
  !masked && (decide (m < 5) || (decide (m < 21) && groupUp s (m - 5)))

/-- POWER_ON_RESET (R358, R370): PWR_OK and the core's monitors are ignored in M9 and during the wake from it. -/
def execPowerOnReset (cause : PorCause) (vddqHeld : Bool) (s : State) : Result :=
  .next (match cause with
    | .vauxLow => powerOnReset (cutBurn s) vddqHeld false
    | .pwrOkLow => if s.mode = .m9 then s else powerOnReset s vddqHeld false
    | .supplyLow m => if s.mode = .m0 ∨ monitored s m then powerOnReset s vddqHeld false else s
    | .failedWake =>
      match s.pwr.avs with
      | some c => if c.why = .wakeM8 ∨ c.why = .wakeAbort then powerOnReset s vddqHeld true else s
      | none => s)

/-- SUPPLY_LOSS (R358). -/
def execSupplyLoss (s : State) : Result := .next (supplyLoss s)

/-- RST_N (R370). -/
def execRstN (s : State) : Result := .next (if s.mode = .m0 then s else deviceReset s 14)

/-- RESET_RELEASE: from M1, once no burn runs and no over-temperature hold stands (R155, R362, R373). -/
def execResetRelease (vccio : BitVec 32) (senseBad : List Nat) (s : State) : Result :=
  .next (if s.mode = .m1 ∧ !s.clk.started ∧ !s.pwr.thermHold ∧ s.lc.burn = none then resetRelease s vccio senseBad else s)

/-- AVS_SETPOINT (R361). -/
def execAvsSetpoint (mv : Nat) (s : State) : Result :=
  .next (if (s.mode = .m5 ∨ s.mode = .m7) ∧ s.pwr.avs = none ∧ s.pwr.entry = none ∧ 600 ≤ mv ∧ mv ≤ 800 ∧ mv % 5 = 0 then
      emit { s with pwr := { s.pwr with avs := some ⟨mv, 1, .setpoint⟩ } } (.avsWrite mv)
    else s)

/-- AVS_VOLTAGE_CHANGE (R360). -/
def execAvsVoltageChange (s : State) : Result :=
  .next (match s.pwr.avs with
    | some c => avsDone s c
    | none => s)

/-- AVS_RETRY: up to three attempts (R360). -/
def execAvsRetry (s : State) : Result :=
  .next (match s.pwr.avs with
    | some c =>
      if c.attempts < 3 then
        emit { s with pwr := { s.pwr with avs := some { c with attempts := c.attempts + 1 } } } (.avsWrite c.mv)
      else avsFailed s c
    | none => s)

/-- SMBUS_WAKE: counted with SMBEN, and acknowledged in M7 to M9 only; during entry it is latched without an
acknowledgement (R365 to R367; DEDUCED, log 79). -/
def execSmbusWake (addr : BitVec 7) (s : State) : Result :=
  .next (if bit (pwrWake s) 15 && pwrWake s % 128 == addr.toNat then
      armWake (if asleep s then emit s .smbAck else s) .smbus
    else s)

/-- WAKE_PIN: a wake pin meets its IMODE condition (R365). -/
def execWakePin (p : Nat) (s : State) : Result :=
  .next (if bit (pwrWake s) 14 && wakePin s p then armWake s .pin else s)

/-- ALARM: PWR_ALARM ms after the mode was reached (R365). In M7 the F1 edges tell; in M8 and M9 the always-on count is
outside the state, and stands still while REF_CLK is absent (R368). -/
def execAlarm (s : State) : Result :=
  .next (if bit (pwrWake s) 13 && pwrAlarm s != 0 && asleep s
      && (if s.mode = .m7 then passed s s.pwr.lowSince (pwrAlarm s * 600000) else !s.clk.refAbsent) then armWake s .alarm
    else s)

/-- WAKE (R367): from M7 at once; from M8 through a VCORE change; from M9 by PWR_CORE_EN and, once VCORE is in range,
through the internal reset of M1. -/
def execWake (s : State) : Result :=
  .next (if !asleep s || s.pwr.wakeArmed.isNone then s
    else if s.mode = .m7 then
      (if s.clk.f1 % 8 = 0 then enterMode (recordWake s) .m5 else s)
    else if s.mode = .m8 then
      (if s.pwr.avs.isSome then s
      else
        let s := recordWake s
        emit { s with pwr := { s.pwr with avs := some ⟨700, 1, .wakeM8⟩ } } (.avsWrite 700))
    else if !s.pwr.coreEn then { s with pwr := { s.pwr with coreEn := true } }
    else
      let cause := s.pwr.wakeArmed
      let s := withCause (coldState s .m1) 11
      { s with pwr := { s.pwr with wakeCause := cause, wakeDue := true, deepWake := true } })

/-- WAKEFAIL (R367): a wake that has begun does not complete within 10 ms. -/
def execWakefail (s : State) : Result :=
  .next (if s.mode = .m9 then
      (if s.pwr.coreEn then withCause { s with pwr := { s.pwr with coreEn := false, wakeArmed := none } } 10 else s)
    else match s.pwr.avs with
      | some c => if c.why = .wakeM8 ∨ c.why = .wakeAbort then powerOnReset s true true else s
      | none => s)

/-- THERM_WARN (R362). -/
def execThermWarn (s : State) : Result := .next (if s.mode.busUp && s.clk.started then raiseEv s 1809 else s)

/-- THERM: the over-temperature shutdown (R362). -/
def execTherm (s : State) : Result :=
  .next (if s.mode = .m0 then s
    else
      let s := deviceReset s 12
      { s with pwr := { s.pwr with thermHold := true } })

/-- THERM_RELEASE (R362). -/
def execThermRelease (s : State) : Result := .next { s with pwr := { s.pwr with thermHold := false } }

end Sys2Proof.Machine
end

