-- ==== Sys2Proof/Machine/Capture.lean ====
section
/-! DEFINITION. Capture and probes: freezing and releasing user clocks, probe selects and lines (R400 to R407). -/

namespace Sys2Proof.Machine

/-! ### Scopes -/

/-- A scope's progress put into the table. -/
def putCap (k : Nat) (c : Cap) : Tbl Cap → Tbl Cap
  | [] => [(k, c)]
  | (j, d) :: t => if k < j then (k, c) :: (j, d) :: t else if k = j then (k, c) :: t else (j, d) :: putCap k c t

/-- s with a scope's progress, `none` for RUN. -/
def setCap (s : State) (k : Nat) (c : Option Cap) : State :=
  { s with cap := { s.cap with scopes := match c with
      | some c => putCap k c s.cap.scopes
      | none => tkeep (· != k) s.cap.scopes } }

/-- The scope that a capture command of a view names. -/
def capScope (s : State) (v : View) (val : Nat) : Nat := if bit val 13 then 16 else viewPart s v

/-- A view that may make device-scope requests (R400). -/
def deviceView (v : View) : Bool := v == .pf0 || v == .jtag || v == .side

/-- Why a capture request is refused, in the order DENIED, INVALID, BUSY (R400, R402). -/
def capcmdCheck (s : State) (v : View) (val : Nat) : Option Nat :=
  let cmd := fld val 15 14
  let k := capScope s v val
  if bit val 13 && (!deviceView v || !session s) then some stDenied
  else if cmd = 0 ∨ cmd = 3 then some stInvalid
  else if cmd = 1 then
    if s.mode ≠ .m5 ∨ (k < 16 ∧ !enabled s k) then some stInvalid
    else if (capOf s k).isSome || (k == 16 && anyCapture s) || (k != 16 && (capOf s 16).isSome) || pwrPend s then
      some stBusy
    else none
  else if (capOf s k).isNone then some stInvalid
  else none

/-- T of DBG_CAPT. -/
def captTime (s : State) (v : View) : Nat := wordsVal ((List.range 4).map fun k => vw s v (0xED004 + 4 * k) 0)

/-- The CAPTURE record of a command (Table 19-3). -/
def captureRec (s : State) (v : View) (val : Nat) : JRec :=
  let k := capScope s v val
  engRec 6 (if k = 16 then 0 else k) 0 0x11 stOk (if k = 16 then 16 else k) val (captTime s v % 2 ^ 32)

/-- DBG_CAPSTAT.STATUS takes the outcome of the view's last request. -/
def setCapStatus (s : State) (v : View) (st : Nat) : State := setVw s v 0xED014 0 (BitVec.ofNat 16 st)

/-- The first F1 edge 2 cycles after the CLK_M cycle in progress. -/
def twoAfter (s : State) : Nat := s.clk.f1 + 4 - s.clk.f1 % 2

/-- A committed capture command takes effect: FREEZE arms the scope; RELEASE cancels an armed request or schedules the
resume edge (R400 to R402). -/
def captureApply (s : State) (v : View) (val : Nat) : State :=
  let k := capScope s v val
  let s := setCapStatus s v stOk
  if fld val 15 14 = 1 then
    setCap s k (some (.armed (twoAfter s) (if bit val 12 then some (captTime s v) else none)))
  else match capOf s k with
    | some (.armed _ _) => setCap s k none
    | some (.frozen f) => setCap s k (some (.resuming f (twoAfter s)))
    | _ => s

/-- DBG_CAPSTAT of a view. -/
def capstat (s : State) (v : View) : Word :=
  let p := viewPart s v
  let c := if (capOf s 16).isSome then capOf s 16 else capOf s p
  let st := match c with
    | none => 0
    | some (.armed _ _) => 1
    | some _ => 2
  BitVec.ofNat 16 (st * 16384 + place (capOf s 16).isSome 13 + (vw s v 0xED014 0).toNat % 256)

/-! ### Edges -/

/-- Pins of a scope, among those that are not at reset or carry a latch. -/
def scopePins (s : State) (k : Nat) : List Nat := (List.range 256).filter fun p => k == 16 || pinPart s p == k

/-- Pads of a scope hold what they drive (Table 19-4). -/
def holdPads (s : State) (k : Nat) : State :=
  (scopePins s k).foldl (fun t p => setPin t p { pinOf t p with held := some (funcDrive s p) }) s

/-- Pads of a scope follow their functions again. -/
def freePads (s : State) (k : Nat) : State :=
  (scopePins s k).foldl (fun t p => setPin t p { pinOf t p with held := none }) s

/-- The freeze edge (R401): user clocks of the scope stop after the F1 edge just taken. -/
def freezeScope (s : State) (k : Nat) : State :=
  let now := sysNow s
  let s := holdPads s k
  let s := setCap s k (some (.frozen s.clk.f1))
  let s := { s with cap := { s.cap with fTime := tset 0 s.cap.fTime k now, rTime := tset 0 s.cap.rTime k 0 } }
  raiseEv (if k = 16 then enterMode s .m6 else s) 1859

/-- FREEZE_EDGE: the scope is armed, 2 F1 cycles have passed, and with AT its time has come. -/
def execFreezeEdge (k : Nat) (s : State) : Result :=
  .next (match capOf s k with
    | some (.armed a t) => if capEdgeDue s (.armed a t) then freezeScope s k else s
    | _ => s)

/-- The SYSTIME reading of the coming F1 edge: the slot edge falls on the edge that ends the slot's last cycle (R189). -/
def nextReading (s : State) : Nat :=
  if s.clk.k + 1 < s.clk.slotLen then sysNow { s with clk := { s.clk with k := s.clk.k + 1 } } else s.clk.systime + 1000

/-- The resume edge (R402): the next F1 edge stands as f + 1 stood. -/
def resumeScope (s : State) (k : Nat) : State :=
  let now := nextReading s
  let s := freePads (setCap s k none) k
  let s := { s with cap := { s.cap with rTime := tset 0 s.cap.rTime k now } }
  raiseEv (if k = 16 then enterMode s .m5 else s) 1860

/-- RESUME_EDGE. -/
def execResumeEdge (k : Nat) (s : State) : Result :=
  .next (match capOf s k with
    | some (.resuming f a) => if capEdgeDue s (.resuming f a) then resumeScope s k else s
    | _ => s)

/-! ### Probes (R406, R407) -/

/-- DBG_PRGN: a region of another partition without a session DENIED; an invalid select or region INVALID. -/
def prgnCheck (s : State) (v : View) (val : Nat) : Option Nat :=
  let r := val % 512
  if r < 384 ∧ regionPart s r ≠ viewPart s v ∧ !session s then some stDenied
  else if r ≥ 384 ∨ (List.range 16).any fun k => decide ((vw s v (0xEE000 + 4 * k) 0x0980).toNat > 2432) then some stInvalid
  else none

/-- A region's probe selects. -/
def prgnApply (s : State) (v : View) (val : Nat) : State :=
  let put := fun (t : Tbl Word) (k : Nat) => tset 0x0980 t (val % 512 * 16 + k) (vw s v (0xEE000 + 4 * k) 0x0980)
  { s with fab := { s.fab with probe := (List.range 16).foldl put s.fab.probe } }

/-- DBG_PLINE: DENIED without a session when the line names, or named, a region of another partition. -/
def plineCheck (s : State) (v : View) (k val : Nat) : Option Nat :=
  let old := probeLine s k
  let foreign := fun w => regionPart s (fld w 12 4) != viewPart s v
  if !session s && (foreign val || (bit old 15 && foreign old)) then some stDenied else none

end Sys2Proof.Machine
end

