-- ==== Sys2Proof/Machine/Debug.lean ====
section
/-! DEFINITION. Life cycle, keys and debug authorisation (R375 to R389). -/

namespace Sys2Proof.Machine

/-! ### LC_STATE and OTP -/

/-- Complete words among step words 0 to 29. -/
def stepsDone (s : State) : Nat := stepCount s []

/-- The first blank token word, and the number left (R389). -/
def tokenWord (s : State) : Option Nat := (List.range 16).find? fun i => tget 0 s.lc.tokens i == 0
def tokensLeft (s : State) : Nat := ((List.range 16).filter fun i => tget 0 s.lc.tokens i == 0).length

/-- LC_STATE. -/
def lcStateWord (s : State) : Word :=
  let n := if s.lc.state = .scrap ∨ s.lc.state = .lost then 0 else stepsDone s
  BitVec.ofNat 16 (s.lc.state.code * 4096 + n * 128 + tokensLeft s * 4 + place s.lc.burn.isSome 1 + place s.lc.wipe 0)

/-- LC_KSTAT. -/
def kstatWord (s : State) : Word := BitVec.ofNat 16 (total ((List.range 5).map fun k => place (!(keySlot s k).isEmpty) k))

/-- What keeps a burn from starting: the margin check (`margin` is what the monitors found, R380), the maintenance
arbiter or another burn (R322). -/
def burnMargin (s : State) (margin : Bool) : Bool := margin && !pwrPend s
def burnBusy (s : State) : Bool := s.flash.op.isSome || s.lc.burn.isSome

/-! ### Steps (R378 to R381) -/

/-- The life-cycle steps of Table 18-2. -/
inductive Step where
  | toVtest | toShipped | seal_ | unseal | return_ | scrap
  deriving DecidableEq, Repr

/-- STEP, by code. -/
def stepOf : Nat → Option Step
  | 1 => some .toVtest | 2 => some .toShipped | 3 => some .seal_ | 4 => some .unseal | 5 => some .return_ | 6 => some .scrap
  | _ => none

/-- The state a step leads to, from a state that allows it. -/
def stepTo : Step → LcState → Option LcState
  | .toVtest, .raw => some .vtest
  | .toShipped, .vtest => some .shipped
  | .seal_, .shipped => some .sealed
  | .unseal, .sealed => some .shipped
  | .return_, .shipped | .return_, .sealed => some .returned
  | .scrap, .scrap | .scrap, .lost => none
  | .scrap, _ => some .scrap
  | _, _ => none

/-- The word that a step burns. -/
def stepBurns (s : State) : Step → Nat
  | .toVtest => 0
  | .toShipped => 1
  | .seal_ | .unseal => stepsDone s
  | .return_ => 30
  | .scrap => 31

/-- The cause with which a step is refused: the first of Table 18-3 that applies. -/
def stepCause (s : State) (code : Nat) (margin : Bool) : Nat :=
  match stepOf code with
  | none => 1
  | some st =>
    let inMode := s.mode == .m2 || s.mode == .m4 || (s.mode == .m5 && st != .return_ && st != .scrap)
    if (stepTo st s.lc.state).isNone then 1
    else if !inMode then 2
    else if (st == .seal_ || st == .unseal) && decide (stepsDone s ≥ 30) then 3
    else if (st == .toVtest || st == .toShipped || st == .unseal) && !bit s.lc.grants 2 then 4
    else if !burnMargin s margin then 5
    else if burnBusy s then 6
    else 0

/-- LC_STATE as it will read after a step. -/
def lcAfter (s : State) (st : Step) : Nat :=
  let t := { s with lc := { s.lc with
    state := (stepTo st s.lc.state).getD s.lc.state
    steps := tset 0 s.lc.steps (stepBurns s st) 0xFFFF
    wipe := s.lc.wipe || st == .return_ } }
  (lcStateWord t).toNat

/-- The LC_STEP response: LC_STATE after the request, and the cause (R379). -/
def stepRsp (s : State) (cause : Nat) : List Byte := leBytes 2 (lcStateWord s).toNat ++ leBytes 2 cause

/-- LC_STEP: a step that passes every check is journaled and then burnt. -/
def lcStep (margin : Bool) (s : State) (p : Nat) (m : MReq) (bs : List Byte) : State :=
  let code := leVal bs
  match stepCause s code margin, stepOf code with
  | 0, some st =>
    journal (workOn s p) (engRec 4 0 0 0x0B stOk code (lcStateWord s).toNat (lcAfter s st)) true 1
      (.lcStep 0 code (stepBurns s st))
  | c, _ => endReq s p m stRefused (stepRsp s c)

/-- The LC_STEP record is committed, or refused with JOURNAL_FULL (cause 7). -/
def lcStepCommitted (s : State) (code word : Nat) (ok : Bool) : State :=
  if ok then { s with lc := { s.lc with burn := some (.step word code) } }
  else endWork s 0 0x0021 stRefused (stepRsp s 7)

/-- A step is complete (R378, R381, R384). -/
def stepDone (s : State) (word code : Nat) : State :=
  match stepOf code with
  | none => s
  | some st =>
    let lc := s.lc
    let s := { s with lc := { lc with
      burn := none
      steps := tset 0 lc.steps word 0xFFFF
      state := (stepTo st lc.state).getD lc.state
      opened := false
      chal := none
      grants := if st = .seal_ then lc.grants % 2 else 0
      keys := if st = .return_ then [] else lc.keys
      wipe := lc.wipe || st == .return_ } }
    endWork (raiseEv s 1840) 0 0x0021 stOk (stepRsp s 0)

/-- The RETURNED erase ends: user flash reads erased, half-erased sectors are done (R384). -/
def wipeDone (s : State) : State :=
  let user := fun a => decide (0x0B000000 ≤ a ∧ a < 0x13000000)
  let half := ((s.flash.status.map (·.1)).filter fun k => user (4096 * k) && halfErased s k)
  let s := { s with flash := { s.flash with
    data := tkeep (fun a => !user a) s.flash.data
    badWords := s.flash.badWords.filter fun w => !user (2 * w) } }
  let s := half.foldl markSector s
  raiseEv { s with lc := { s.lc with wipe := false } } 1844

/-! ### Keys (R382) -/

/-- The key that a request carries: 32 bytes for an AES slot, 96 for the signing key. -/
def keyBytes (slot : Nat) (bs : List Byte) : List Byte := if slot = 4 then (bs.drop 8).take 96 else (bs.drop 8).take 32

/-- Check value of a key, its first byte lowest. -/
def keyCheck (slot : Nat) (k : List Byte) : BitVec 32 :=
  BitVec.ofNat 32 (leVal ((if slot = 4 then sha384 k else beBytes 16 (aesBlock k 0)).take 4))

/-- Why a KEY_WRITE request is refused, DENIED before INVALID. -/
def keyRefusal (s : State) (bs : List Byte) : Option Nat :=
  let slot := leVal (bs.take 1)
  let op := leVal ((bs.drop 1).take 1)
  let full := !(keySlot s slot).isEmpty
  if s.lc.state ≠ .shipped ∧ s.lc.state ≠ .sealed then some stDenied
  else if s.lc.state = .sealed ∧ op = 1 ∧ slot ≤ 4 ∧ full then some stDenied
  else if slot > 4 ∨ (op ≠ 1 ∧ op ≠ 2) then some stInvalid
  else if op = 1 ∧ slot = 4 ∧ !validPoint (keyBytes 4 bs) then some stInvalid
  else none

/-- A key request: journaled with the slot and the check value. -/
def keyRequest (s : State) (p : Nat) (m : MReq) (bs : List Byte) : State :=
  let slot := leVal (bs.take 1)
  match keyRefusal s bs with
  | some st => endReq s p m st []
  | none =>
    let write := leVal ((bs.drop 1).take 1) == 1
    let k := keyBytes slot bs
    let chk := if write then keyCheck slot k else 0
    journal (workOn s p) (engRec 4 0 0 0x0C stOk slot 0 chk.toNat) true 1 (.key slot (if write then some k else none) chk)

/-- The KEY record is committed, or refused. -/
def keyCommitted (s : State) (slot : Nat) (k : Option (List Byte)) (chk : BitVec 32) (ok : Bool) : State :=
  if ok then
    let s := { s with lc := { s.lc with keys := tset [] s.lc.keys slot (k.getD []) } }
    endWork (raiseEv s 1843) 0 0x0020 stOk (leBytes 4 chk.toNat)
  else endWork s 0 0x0020 stJournalFull []

/-! ### Challenges (R386) -/

/-- TEST is allowed now: mode M2 or M4, and a token left where one is consumed (R17, R375). -/
def testAllowed (s : State) : Bool :=
  (s.mode == .m2 || s.mode == .m4)
    && (match s.lc.state with
      | .shipped | .sealed => (tokenWord s).isSome
      | .scrap | .lost => false
      | _ => true)

/-- Why a challenge request is refused (R386): DENIED, BUSY, REFUSED. -/
def chalRefusal (s : State) (scope : Nat) : Option Nat :=
  if s.lc.state = .scrap ∨ s.lc.state = .lost then some stDenied
  else if s.lc.chal.isSome then some stBusy
  else if scope % 8 = 0 ∨ (bit scope 1 ∧ !testAllowed s) then some stRefused
  else none

/-- A challenge request is accepted: in RAW and VTEST a TEST request opens M10 at once; otherwise a challenge with a
fresh nonce is issued. -/
def challenge (s : State) (scope : Nat) : State :=
  if bit scope 1 && (s.lc.state == .raw || s.lc.state == .vtest) then
    enterMode { s with lc := { s.lc with grants := Nat.lor s.lc.grants 2 } } .m10
  else
    let (n, s) := draw s
    { s with lc := { s.lc with chal := some ⟨Config.nonce n, scope % 8, lcStateWord s, s.clk.f1 + 180000000000⟩ } }

/-- The 52 bytes of a challenge. -/
def chalBytes (c : Challenge) : List Byte :=
  leBytes 16 Config.serial.toNat ++ leBytes 32 c.nonce.toNat ++ leBytes 2 c.scope ++ leBytes 2 c.lcState.toNat

/-- Management request DBG_CHAL. -/
def chalRequest (s : State) (p : Nat) (m : MReq) (bs : List Byte) : State :=
  match chalRefusal s (leVal bs) with
  | some st => endReq s p m st []
  | none =>
    let s := challenge s (leVal bs)
    endReq s p m stOk (match s.lc.chal with
      | some c => chalBytes c
      | none => [])

/-! ### Responses (R387, R388) -/

/-- DBG_STAT of a view. -/
def dbgStatWord (s : State) (v : View) : Word :=
  let x := tget {} s.lc.stat (viewCode v)
  BitVec.ofNat 16 (place s.lc.chal.isSome 15 + x.resp * 8192 + x.cause * 512 + place (session s) 5 + s.lc.grants % 8)

/-- DBG_RDAT: a 49th word INVALID. -/
def rdatCheck (s : State) (v : View) : Option Nat :=
  if (tget [] s.lc.rbuf (viewCode v)).length ≥ 48 then some stInvalid else none
def rdatApply (s : State) (v : View) (val : Word) : State :=
  { s with lc := { s.lc with rbuf := tmod [] s.lc.rbuf (viewCode v) (· ++ [val]) } }

/-- The bytes of a response buffer: the first byte of each word in [15:8]. -/
def rspBytes (ws : List Word) : List Byte := ws.flatMap fun w => beBytes 2 w.toNat

/-- DBG_RCMD takes effect: GO submits the buffer, and GO or CLR empties it. -/
def rcmdApply (s : State) (v : View) (val : Nat) : State :=
  let c := viewCode v
  let lc := s.lc
  let bytes := rspBytes (tget [] lc.rbuf c)
  let empty := tset [] lc.rbuf c []
  if bit val 15 then
    { s with lc := { lc with
      rbuf := empty, intake := lc.intake ++ [(.view v, bytes)], stat := tset {} lc.stat c { resp := 1, cause := 0 } } }
  else if bit val 14 then { s with lc := { lc with rbuf := empty } }
  else s

/-- Order of the intake: side port, JTAG, the other views, management request. -/
def RspSrc.rank : RspSrc → Nat
  | .view .side => 0
  | .view .jtag => 1
  | .view _ => 2
  | .mgmt => 3

/-- A response ends with a cause of Table 18-5. -/
def responseEnds (s : State) (src : RspSrc) (cause : Nat) : State :=
  let s := raiseEv s (if cause = 0 then 1841 else 1842)
  match src with
  | .view v =>
    { s with lc := { s.lc with stat := tset {} s.lc.stat (viewCode v) { resp := if cause = 0 then 2 else 3, cause := cause } } }
  | .mgmt => endWork s 0 0x0023 (if cause = 0 then stOk else stRefused) (leBytes 2 cause)

/-- The GRANT record of a response (Table 19-3). -/
def grantRec (scope cause : Nat) : JRec := engRec 4 0 0 0x0E (if cause = 0 then stOk else stRefused) scope 0 cause

/-- Responses that the intake does not take fail with NOCHAL, each with its record (R393). -/
def noChallenge (s : State) (rs : List (RspSrc × List Byte)) : State :=
  rs.foldl (fun s r => responseEnds (journal s (grantRec 0 1) true 1 .done) r.1 1) s

/-- The responses of the cycle, in the intake's order. -/
def inOrder (rs : List (RspSrc × List Byte)) : List (RspSrc × List Byte) :=
  (List.range 4).flatMap fun k => rs.filter (·.1.rank == k)

/-- The intake takes one response, which consumes the challenge; the others fail (R388). -/
def responseIntake (s : State) : State :=
  match inOrder s.lc.intake, s.lc.chal with
  | [], _ => s
  | rs, none => noChallenge { s with lc := { s.lc with intake := [] } } rs
  | (src, bytes) :: rest, some c =>
    if s.lc.checking.isSome then s
    else noChallenge { s with lc := { s.lc with intake := [], chal := none, checking := some (src, bytes, c) } } rest

/-- A token burns for a TEST scope in SHIPPED and SEALED. -/
def needsToken (s : State) (scope : Nat) : Bool := bit scope 1 && (s.lc.state == .shipped || s.lc.state == .sealed)

/-- The cause of a checked response, before its journal record. -/
def responseCause (s : State) (bytes : List Byte) (c : Challenge) (margin : Bool) : Nat :=
  if bytes.length ≠ 96 ∨ !signatureGood Config.debugKey (chalBytes c) bytes then 2
  else if bit c.scope 1 && !testAllowed s then 3
  else if needsToken s c.scope && !burnMargin s margin then 5
  else if needsToken s c.scope && burnBusy s then 6
  else 0

/-- A response check ends (R388). -/
def responseCheck (s : State) (margin : Bool) : State :=
  match s.lc.checking with
  | none => s
  | some (src, bytes, c) =>
    if s.lc.granting.isSome then s
    else
      let s := { s with lc := { s.lc with checking := none } }
      match responseCause s bytes c margin with
      | 0 => journal { s with lc := { s.lc with granting := some (src, c.scope) } } (grantRec c.scope 0) true 1 (.grant c.scope)
      | n => responseEnds (journal s (grantRec c.scope n) true 1 .done) src n

/-- The scope of the response that is being granted comes into force; TEST opens M10. -/
def grantNow (s : State) : State :=
  match s.lc.granting with
  | none => s
  | some (src, scope) =>
    let s := { s with lc := { s.lc with granting := none, grants := Nat.lor s.lc.grants scope } }
    let s := if bit scope 1 && (s.mode == .m2 || s.mode == .m4) then enterMode s .m10 else s
    responseEnds s src 0

/-- The response being granted fails. -/
def grantFails (s : State) (cause : Nat) : State :=
  match s.lc.granting with
  | none => s
  | some (src, _) => responseEnds { s with lc := { s.lc with granting := none } } src cause

/-- The GRANT record is committed, or refused: the token's record follows where one burns. -/
def grantCommitted (s : State) (scope : Nat) (ok : Bool) : State :=
  if !ok then grantFails s 7
  else if needsToken s scope then
    match tokenWord s with
    | some w => journal s (engRec 4 0 0 0x0D stOk w 0 0) true 1 (.token w)
    | none => grantFails s 3
  else grantNow s

/-- The TOKEN record is committed, or refused: the burn starts unless one runs already. -/
def tokenCommitted (s : State) (w : Nat) (ok : Bool) : State :=
  if !ok then grantFails s 7
  else if burnBusy s then grantFails s 6
  else { s with lc := { s.lc with burn := some (.token w) } }

/-- DBG_CTL.OPEN: DENIED outside RAW, VTEST and SHIPPED. -/
def openCheck (s : State) (val : Nat) : Option Nat :=
  if bit val 15 && !(s.lc.state == .raw || s.lc.state == .vtest || s.lc.state == .shipped) then some stDenied else none

/-! ### The commands -/

/-- LC_STEP of one STEP; a STEP outside Table 18-2 ends with SCRAP's command. -/
def stepCommand (code : Nat) (margin : Bool) (s : State) : State :=
  serve s 0x0021 true (· == 2) 4 fun s p m bs =>
    if leVal bs = code ∨ (code = 6 ∧ (stepOf (leVal bs)).isNone) then lcStep margin s p m bs else s

/-- TO_VTEST. -/
def execToVtest (margin : Bool) (s : State) : Result := .next (stepCommand 1 margin s)

/-- TO_SHIPPED. -/
def execToShipped (margin : Bool) (s : State) : Result := .next (stepCommand 2 margin s)

/-- SEAL. -/
def execSealStep (margin : Bool) (s : State) : Result := .next (stepCommand 3 margin s)

/-- UNSEAL. -/
def execUnseal (margin : Bool) (s : State) : Result := .next (stepCommand 4 margin s)

/-- RETURN. -/
def execReturnStep (margin : Bool) (s : State) : Result := .next (stepCommand 5 margin s)

/-- SCRAP. -/
def execScrap (margin : Bool) (s : State) : Result := .next (stepCommand 6 margin s)

/-- BURN_DONE: the word reads complete (R378, R388). A burn goes on through a reset (R373). -/
def execBurnDone (s : State) : Result :=
  .next (match s.lc.burn with
    | some (.step w c) => stepDone s w c
    | some (.token w) => grantNow { s with lc := { s.lc with burn := none, tokens := tset 0 s.lc.tokens w 0xFFFF } }
    | none => s)

/-- WIPE_DONE (R384). -/
def execWipeDone (s : State) : Result := .next (if s.lc.wipe && chatyUp s && s.clk.started then wipeDone s else s)

/-- KEY_WRITE with OP 0x01; an OP that R382 does not list ends here. -/
def execKeyWrite (s : State) : Result :=
  .next (serve s 0x0020 true (· == 104) 4 fun s p m bs => if leVal ((bs.drop 1).take 1) = 2 then s else keyRequest s p m bs)

/-- KEY_WRITE with OP 0x02. -/
def execKeyClear (s : State) : Result :=
  .next (serve s 0x0020 true (· == 104) 4 fun s p m bs => if leVal ((bs.drop 1).take 1) = 2 then keyRequest s p m bs else s)

/-- DBG_CHAL (R386). -/
def execDbgChal (s : State) : Result := .next (serve s 0x0022 true (· == 2) 52 chalRequest)

/-- CHALLENGE_LAPSE: 300 s after its issue (R386). -/
def execChallengeLapse (s : State) : Result :=
  .next (match s.lc.chal with
    | some c => if c.expires ≤ s.clk.f1 then { s with lc := { s.lc with chal := none } } else s
    | none => s)

/-- DBG_RESP (R387). -/
def execDbgResp (s : State) : Result :=
  .next (serve s 0x0023 true (· == 96) 2 fun s p _ bs =>
    let s := workOn s p
    { s with lc := { s.lc with intake := s.lc.intake ++ [(.mgmt, bs)] } })

/-- RESPONSE_INTAKE (R388). -/
def execResponseIntake (s : State) : Result := .next (responseIntake s)

/-- RESPONSE_CHECK (R388). -/
def execResponseCheck (margin : Bool) (s : State) : Result := .next (responseCheck s margin)

end Sys2Proof.Machine
end

