-- ==== Sys2Proof/Machine/Flags.lean ====
section
/-! DEFINITION. Flags and status fields: the words that status registers compute from the state (SYS_MODE, SYS_HSTAT,
MBX_CTL, CFG_LDSTAT, CFG_BOOTSTAT, BNK_WWC, QE_MIGSTAT, TIM_STAT, TIM_PGSTAT, SEG_STAT, LNK_STAT, MEM_STAT, MEM_MAINT,
MGT_STAT, PIN_IN). -/

namespace Sys2Proof.Machine

/-- A 16-bit word of a value: bits [16k + 15:16k]. -/
def wordAt (n k : Nat) : Word := BitVec.ofNat 16 (n / 65536 ^ k)

/-- The mailbox of a view. -/
def mbxOf (s : State) (v : View) : Mailbox := tget {} s.mbx (viewCode v)

/-- MBX_CTL of a view. -/
def mbxCtl (s : State) (v : View) : Word :=
  let m := mbxOf s v
  BitVec.ofNat 16 (place m.valid 15 + place m.busy 14 + m.seq % 4 * 4096 + m.status % 16 * 256 + m.ftag % 256)

/-- SYS_MODE. -/
def sysMode (s : State) : Word := BitVec.ofNat 16 (s.last.code * 4096 + place (phalt s) 4 + s.mode.code)

/-- SYS_HSTAT. -/
def hstat (s : State) : Word :=
  BitVec.ofNat 16 (if s.host.rate = 0 then 0
    else 0x8000 + s.host.rate % 8 * 4096 + s.host.width % 16 * 256 + s.host.hcap % 128)

/-- CFG_LDSTAT of a view. -/
def ldstat (s : State) (v : View) : Word :=
  let x := loadStat s (viewCode v)
  BitVec.ofNat 16 (x.state % 4 * 16384 + x.path % 4 * 4096 + x.cause % 16 * 256 + x.status % 256)

/-- CFG_BOOTSTAT. -/
def bootstat (s : State) : Word :=
  let b := s.ldr.boot
  BitVec.ofNat 16 (b.pcause % 16 * 4096 + b.fcause % 16 * 256 + place b.pempty 3 + place b.fempty 2 + b.slot % 4)

/-- The bits of BNK_WWCk whose banks lie in a view's partition (R127). -/
def wwcMask (s : State) (v : View) (k : Nat) : Word :=
  BitVec.ofNat 16 (total ((List.range 16).map fun i => place (bankPart s (16 * k + i) == viewPart s v) i))

/-- QE_MIGSTAT of a view. -/
def migstat (s : State) (v : View) : Word :=
  let m := tget {} s.qe.mig (viewCode v)
  let drain := match (queueOf s m.qid).old with
    | some o => !o.pending
    | none => false
  BitVec.ofNat 16 (place m.pend 15 + place drain 14 + m.status % 256)

/-- TIM_STAT. -/
def timStat (s : State) : Word :=
  BitVec.ofNat 16 (place s.clk.refFault 15 + place s.clk.oos 14 + place s.clk.lock 13 + place s.clk.refSeen 12)

/-- TIM_PGSTAT of a partition. -/
def pgstat (s : State) (p : Nat) : Word :=
  let a := almOf s p
  let st := match a.flip with
    | none => 0
    | some f => if f.boundary.isSome then 2 else 1
  BitVec.ofNat 16 (st * 16384 + a.cause % 16 * 1024)

/-- SEG_STAT of a port. -/
def segStat (s : State) (k : Nat) : Word :=
  BitVec.ofNat 16 ((match segState s k with | .off => 0 | .csma => 1 | .active => 2 | .fallback => 3) * 16384)

/-- LNK_STAT of a link. -/
def lnkStat (s : State) (k : Nat) : Word :=
  BitVec.ofNat 16 ((linkState s k).code * 8192 + place (s.timeSrc == some k) 12 + (linkOf s k).pDevid % 4096)

/-- MEM_STATc. -/
def memStat (s : State) (mc : Nat) : Word :=
  let c := chanOf s mc
  BitVec.ofNat 16 (place c.ready 15 + place c.fail 14 + c.gib % 256)

/-- A capture readback is under way: a view's mailbox works on a frame of a frozen partition (R403, Table 14-5). -/
def readbackRuns (s : State) : Bool :=
  s.mbx.any fun e =>
    let sel := e.2.sel.toNat
    e.2.busy && fld sel 31 28 == 0xE && decide (8 ≤ fld sel 27 24 ∧ fld sel 19 11 < 384)
      && frozen s (regionPart s (fld sel 19 11))

/-- MEM_MAINT: the activities that stand between their start and their end. A scrubber's access, a configuration scrub
read and the programming of a spilled record are single commands, so MSCR, CSCR and JSPILL read 0 between commands
(DESIGN CHOICE, log 70). -/
def memMaint (s : State) : Word :=
  let load := match s.ldr.running with
    | some l => !l.device
    | none => false
  let swap := s.swp.groups.any fun e => match e.2.sched with
    | some q => q.near s
    | none => false
  BitVec.ofNat 16 (place load 13 + place swap 12 + place (!s.bank.fill.isEmpty) 11 + place (!s.dram.filling.isEmpty) 10
    + place (s.flash.op.isSome && !s.flash.suspended) 9
    + place (readbackRuns s) 7 + place s.lc.burn.isSome 6)

/-- MGT_STAT: ROM while no verified update runs, and the restarts (R327). -/
def mgtStat (s : State) : Word := BitVec.ofNat 16 (place s.mgt.rom 15 + s.mgt.restarts % 256)

/-- A GPIO word as a view reads it: the bits of its own pins. -/
def gpioRead (s : State) (v : View) (g : Nat) (w : Word) : Word := w &&& BitVec.ofNat 16 (ownMask s v g)

/-- PIN_IN of a group: the level of every pad. -/
def pinIn (s : State) (g : Nat) : Word :=
  BitVec.ofNat 16 (total ((List.range 16).map fun i => place (padLevel s (16 * g + i)) i))

end Sys2Proof.Machine
end

