-- ==== Sys2Proof/Machine/Registers.lean ====
section
/-! DEFINITION. What every register reads (Table 2-1 and the register descriptions of chapters 1 to 20). -/

namespace Sys2Proof.Machine

/-! ### The word of a register -/

/-- What a register reads in a view, without the effects that a read may have. A WO register reads zero (Table 2-1). -/
def regWord (s : State) (v : View) (r : RegRow) (i : Nat) : Word :=
  let p := viewPart s v
  let ld := loadStat s (viewCode v)
  match r.reg with
  | .sysId => sysId s
  | .sysMode => sysMode s
  | .sysFwctl => if s.framed.any (·.view == v) then 0x8000 else 0
  | .mbxCtl => mbxCtl s v
  | .mbxD => wordAt (mbxOf s v).data.toNat i
  | .sysHstat => hstat s
  | .cfgLdstat => ldstat s v
  | .cfgFadrHi => wordAt ld.fadr.toNat 1
  | .cfgFadrLo => wordAt ld.fadr.toNat 0
  | .cfgFcrc => ld.fcrc
  | .cfgImgIdHi => wordAt ld.imgId.toNat 1
  | .cfgImgIdLo => wordAt ld.imgId.toNat 0
  | .cfgKsel => BitVec.ofNat 16 (ld.ksel % 8)
  | .cfgPers => ld.pers
  | .cfgFailadrHi => wordAt ld.failAdr.toNat 1
  | .cfgFailadrLo => wordAt ld.failAdr.toNat 0
  | .cfgBootstat => bootstat s
  | .cfgCgstat => BitVec.ofNat 16 (cgStat s p i)
  | .prtEn => if s.fab.pers = 0 then stored s r i v else 1
  | .bnkOwn => BitVec.ofNat 16 (bankOwnWord s i)
  | .bnkWwc => stored s r i v &&& wwcMask s v i
  | .qeMigstat => migstat s v
  | .timStat => timStat s
  | .timPgstat => pgstat s p
  | .timPgfailHi => wordAt (almOf s p).fail 1
  | .timPgfailLo => wordAt (almOf s p).fail 0
  | .segStat => segStat s i
  | .lnkIncHi => wordAt s.flash.inc.toNat 1
  | .lnkIncLo => wordAt s.flash.inc.toNat 0
  | .lnkStat => lnkStat s i
  | .memWin => BitVec.ofNat 16 (memWinWord s i)
  | .memStat0 => memStat s 0
  | .memStat1 => memStat s 1
  | .memScrctl => stored s r i v ||| BitVec.ofNat 16 (place (scrubberOf s i).lag 14)
  | .memRetcnt => BitVec.ofNat 16 s.dram.retiredPages.length
  | .memMaint => memMaint s
  | .flsStat => flsStat s
  | .pinOut | .pinOe => gpioRead s v i (stored s r i v)
  | .pinIn => gpioRead s v i (pinIn s i)
  | .pinVstat0 => wordAt s.pins.vstat.toNat 0
  | .pinVstat1 => wordAt s.pins.vstat.toNat 1
  | .pinSstat => sstat s i
  | .pinSdat => (sdatRead s i).1
  | .evtOwn => evtOwnRead s i
  | .evtClaim => (claimRead s i).1
  | .pwrMode => pwrModeWord s
  | .pwrStat => pwrStatWord s
  | .pwrPadRelease => s.pwr.held
  | .pwrRstcause => s.pwr.rstCause
  | .pwrVset => BitVec.ofNat 16 s.pwr.vset
  | .lcState => lcStateWord s
  | .lcSn => wordAt Config.serial.toNat i
  | .lcKstat => kstatWord s
  | .jrnStat => jrnStat s
  | .jrnUsed => jrnUsed s
  | .jrnSeqHi => wordAt s.jrn.seq 1
  | .jrnSeqLo => wordAt s.jrn.seq 0
  | .dbgStat => dbgStatWord s v
  | .dbgCtl => if s.lc.opened then 0x8000 else 0
  | .dbgCapstat => capstat s v
  | .hrtStat => hrtStat s i
  | .mgtFwver => fwVersion s
  | .mgtStat => mgtStat s
  | .mgtQocc => BitVec.ofNat 16 (tget [] s.mgt.places p).length
  | _ => if r.cls = .wo then 0 else stored s r i v

/-- The pending value of a framed register, or its active value (R40). -/
def stagedWord (s : State) (v : View) (r : RegRow) (i : Nat) : Word :=
  match s.framed.find? (fun w => w.off == r.off i) with
  | some w => w.val
  | none => stored s r i v

/-- A VF of a disabled partition: its BAR0 reads zero (R240). -/
def readsZero (s : State) : View → Bool
  | .vf n => !enabled s n
  | _ => false

/-- The word that a read of an offset returns in a view (R36, R40, R53). -/
def peek (s : State) (v : View) (off : Nat) : Word :=
  match findReg off with
  | some (r, i, stg) =>
    if !visible s v r i || readsZero s v then 0
    else if stg then stagedWord s v r i
    else regWord s v r i
  | none => 0

/-- A read's effect on what it reads: EVT_CLAIM clears its source, PIN_SDAT gives up its byte, MBX_D7 clears VALID (R47,
R351, R357). -/
def readEffect (s : State) (v : View) (off : Nat) : State :=
  match findReg off with
  | some (r, i, _) =>
    if !visible s v r i || readsZero s v then s
    else match r.reg with
      | .evtClaim => (claimRead s i).2
      | .pinSdat => (sdatRead s i).2
      | .mbxD => if i = 7 then { s with mbx := tset {} s.mbx (viewCode v) { mbxOf s v with valid := false } } else s
      | _ => s
  | none => s

end Sys2Proof.Machine
end

