-- ==== Sys2Proof/Machine/RegWrite.lean ====
section
/-! DEFINITION. Register writes: the refusals of every register in the order of R430, and what an accepted write does
(R36 to R46, R89, R91, and the register descriptions). -/

namespace Sys2Proof.Machine

/-! ### Refusals -/

/-- The group of a side-port load, by CFG_CGSEL of the side-port view (R167). -/
def sideGroup (s : State) : Nat := (vw s .side 0x10100 0).toNat % 4

/-- A region holds a loaded configuration frame: active, staged, or named by a load that runs or waits (R89, R154, R164). -/
def regionLoaded (s : State) (r : Nat) : Bool :=
  !blank s.fab.active r || shadowOf s r != .idle || (match s.ldr.running with
    | some l => (l.regmask.getD l.claim).contains r
    | none => false)

/-- PRT_RGN (R89, R131). -/
def prtRgnCheck (s : State) (k val : Nat) : Option Nat :=
  let new := fun j => fld val (4 * j + 3) (4 * j)
  let changes := fun j => new j != regionPart s (4 * k + j)
  let busy := fun j => regionLoaded s (4 * k + j) || (upto (4 * (4 * k + j)) 4).any (bankBusy s)
  if s.fab.pers ≠ 0 ∧ (List.range 4).any (fun j => new j != 0) then some stInvalid
  else if (List.range 4).any fun j => changes j && busy j then some stBusy
  else none

/-- BRG_GATEk. -/
def gateWord (s : State) (k : Nat) : Nat := (dev s (0x21000 + 4 * k) 0xFFFF).toNat

/-- A loaded in-lane select of a partition's regions names a source: every frame of either plane counts, one of a load
that has not passed its checks too (DESIGN CHOICE, log 102). -/
def laneRelies (s : State) (src p : Nat) : Bool :=
  let uses := fun (pl : Plane) (r : Nat) => regionPart s r == p && (List.range 8).any fun l => laneSel pl r l == src
  (configured s.fab.active).any (uses s.fab.active) || (configured s.fab.shadow).any (uses s.fab.shadow)

/-- BRG_GATE (R90, R91): BUSY when the write takes away a permission that a loaded select relies on. -/
def gateCheck (s : State) (k val : Nat) : Option Nat :=
  let old := gateWord s k
  let src := old % 4096
  let p := old / 4096
  let other := (List.range 64).any fun j => j != k && gateWord s j == old
  if val ≠ old ∧ src < 3072 ∧ sourcePart s src ≠ p ∧ !other ∧ laneRelies s src p then some stBusy else none

/-- BNK_TDM: an invalid code INVALID (R124, Table 6-1). -/
def tdmCheck (val : Nat) : Option Nat :=
  if (List.range 4).any fun j => let c := fld val (4 * j + 3) (4 * j); c == 1 || decide (c ≥ 8) then some stInvalid else none

/-- PRT_EN: BUSY while a low-power request waits, when an enable would change (R363). -/
def prtEnCheck (s : State) (val : Nat) : Option Nat :=
  if s.pwr.waiting && Nat.lor val 1 != (dev s 0x20004 1).toNat then some stBusy else none

/-- CFG_LDCMD (R156 to R158, R376). -/
def ldcmdCheck (s : State) (v : View) (val : Nat) : Option Nat :=
  match val % 16 with
  | 1 => if v = .side then (loadRefusal s (viewCode .side) 0 (sideGroup s) []).map (·.1) else some stInvalid
  | 2 => none
  | _ => some stInvalid

/-- Words of the side load's image, once its header tells (R145). -/
def sideWords (l : Load) : Option Nat :=
  if l.buf.length < 12 then none
  else
    let w := fun i => (nthD 0 l.buf i).toNat
    some (imgWords (w 10 + 65536 * w 11) (w 8 % 2 == 1))

/-- CFG_FDAT: INVALID with no side-port load running, or after the image's last word (R157). -/
def fdatCheck (s : State) : Option Nat :=
  match s.ldr.running with
  | some l =>
    if l.path ≠ .side then some stInvalid
    else match sideWords l with
      | some n => if n ≤ l.buf.length then some stInvalid else none
      | none => none
  | none => some stInvalid

/-- TIM_PGCMD: what is refused at the register (R208 to R210). -/
def pgcmdCheck (s : State) (p val : Nat) : Option Nat :=
  match fld val 15 14 with
  | 1 => if flipRefusal s p (bit val 13) = some stInvalid then some stInvalid else none
  | 2 => if flipCancellable s p then none else some stRefused
  | 3 => if almBusy s p then some stBusy else none
  | _ => some stInvalid

/-- The refusal of a register's write by its own rules, with the locks left out: INVALID, DENIED and BUSY in the order
of R430. `val` holds _HI:_LO for a two-word commit. -/
def ownCheck (s : State) (v : View) (r : Reg) (i val : Nat) : Option Nat :=
  let p := viewPart s v
  match r with
  | .sysRsel => rselCheck s v val
  | .cfgLdcmd => ldcmdCheck s v val
  | .cfgFdat => fdatCheck s
  | .cfgSwpcmd => swpcmdCheck s p val
  | .prtEn => prtEnCheck s val
  | .prtRgn => prtRgnCheck s i val
  | .brgGate => gateCheck s i val
  | .bnkOwn => bankOwnCheck s i val
  | .bnkTdm => tdmCheck val
  | .bnkRetire => bnkRetireCheck s val
  | .qeQrange => qrangeCheck s i val
  | .qePquota => pquotaCheck s i val
  | .qeFspshare => fspShareCheck s i val
  | .qeSpill => spillCheck s i val
  | .qeQselLo => queueCheck s p (val % 0x100000) (qcfgWords s v)
  | .qeSquota => squotaCheck s i val
  | .qeFspb => fspBCheck s i val
  | .qeFspr => fspRCheck s i val
  | .qeFspown => fspOwnCheck s i val
  | .timCtl => timCtlCheck s val
  | .timFlen => flenCheck s val
  | .timHlen => hlenCheck s
  | .timLdsecLo => ldsecCheck s
  | .timArange => arangeCheck s i val
  | .timShare => shareCheck s i val
  | .timPgcmd => pgcmdCheck s p val
  | .timAidxLo => aidxCheck s p val
  | .segOwn => segOwnCheck s i
  | .segCtl => segCtlCheck s i val
  | .segPlca => segPlcaCheck s i val
  | .segMaxb => segMaxbCheck s i val
  | .segRsel => rosterCheck s v val
  | .lnkDevid => devidCheck s
  | .lnkRetry => lnkRetryCheck val
  | .lnkCtl => lnkCtlCheck s i val
  | .memWin => memWinCheck s i val
  | .memScrpassLo => scrPassCheck val
  | .memRetireLo => memRetireCheck s val
  | .flsUqLo => quotaCheck s i val
  | .pinOwn => pinOwnCheck s i val
  | .pinUown => pinUownCheck s i val
  | .pinCfg => pinCfgCheck s i false val
  | .pinAux => pinCfgCheck s i true val
  | .pinTsel => tselCheck s v val
  | .pinPsel => pselCheck s v val
  | .pinSctl => sctlCheck s i val
  | .pinSdat => sdatCheck s i
  | .evtOwn => evtOwnCheck s i val
  | .evtRte => evtRteCheck s i val
  | .pwrMode => pwrModeCheck s val
  | .pwrReset => if val = 0x5E7A then none else some stInvalid
  | .pwrPrst => if bit val 0 then prstCheck s else none
  | .jrnShare => jrnShareCheck s i val
  | .dbgCcmd => if bit val 15 then chalRefusal s (val % 8) else none
  | .dbgRdat => rdatCheck s v
  | .dbgCtl => openCheck s val
  | .dbgCapcmd => capcmdCheck s v val
  | .dbgPrgn => prgnCheck s v val
  | .dbgPline => plineCheck s v i val
  | .hrtOwn => hrtOwnCheck s i val
  | .hrtCtl => hrtCtlCheck s i val
  | _ => none

/-- The refusal that a write meets first: LOCKED before all others (R39, R430). -/
def writeCheck (s : State) (v : View) (r : RegRow) (i val : Nat) : Option Nat :=
  if r.cls = .rwl ∧ locked s then some stLocked else ownCheck s v r.reg i val

/-! ### Effects -/

/-- Bits written with 1 clear (W1C). -/
def clearBits (old val : Word) (mask : Nat) : Word := old &&& ~~~(val &&& BitVec.ofNat 16 mask)

/-- A mailbox selector commits (R46): SEQ moves on, an earlier snapshot is abandoned, a new one begins. -/
def mbxSelect (s : State) (v : View) (val : Nat) : State :=
  let s := setVw (setVw s v 0x40 0 (wordAt val 1)) v 0x44 0 (wordAt val 0)
  let m := mbxOf s v
  { s with mbx := tset {} s.mbx (viewCode v) { m with
      valid := false, busy := true, seq := (m.seq + 1) % 4, sel := BitVec.ofNat 32 val, since := s.clk.f1 } }

/-- SYS_FWCTL.CANCEL discards every pending framed write of a view (R41). -/
def cancelFramed (s : State) (v : View) : State := { s with framed := s.framed.filter (·.view != v) }

/-- A framed write becomes pending and replaces an earlier one to the same register (R41, R42). -/
def putFramed (s : State) (w : FramedWrite) : State :=
  { s with framed := s.framed.filter (·.off != w.off) ++ [w] }

/-- START_SIDE: the side port's load of P0 waits its turn (R157, R167). None of its image is there to be read ahead. -/
def startSide (s : State) : State :=
  addLoad s (newLoad (viewCode .side) 0 (sideGroup s) .side [] s.clk.f1)

/-- CFG_FDAT: the next image word reaches the running side load (R157). -/
def fdatApply (s : State) (val : Word) : State :=
  match s.ldr.running with
  | some l => setRunning s (some { l with buf := l.buf ++ [val], lastData := s.clk.f1 })
  | none => s

/-- CFG_LDCMD. -/
def ldcmdApply (s : State) (v : View) (val : Nat) : State :=
  if val % 16 = 1 then startSide s else endViewLoad s (viewCode v) stAborted

/-- CFG_SWPCMD (R169 to R172). -/
def swpcmdApply (s : State) (v : View) (val : Nat) : State :=
  let p := viewPart s v
  let a := swpcmdAsk s v val
  match a.cmd with
  | 1 => swapRequest s p a
  | 2 => swapCancelNow s p a.cg
  | _ => clearGroup s p a.cg

/-- TIM_PGCMD (R208 to R210). -/
def pgcmdApply (s : State) (v : View) (val : Nat) : State :=
  let p := viewPart s v
  match fld val 15 14 with
  | 1 => flipRequest s p (bit val 13) ((vw s v 0x50504 0).toNat * 65536 + (vw s v 0x50508 0).toNat) (some v) none
  | 2 => flipCancelReq s p none
  | _ => copyRequest s p none

/-- A partition's FSPs take their reset state; which cells were booked for the running slot stays (R24). -/
def resetFsps (s : State) (p : Nat) : State :=
  let f := fun (e : Nat × Fsp) => if fspPart s e.1 = p then (e.1, { plan := e.2.plan }) else e
  { s with qe := { s.qe with fsp := s.qe.fsp.map f } }

/-- Regions, FSPs, harts, ports, pins and serial units of a partition whose enable changes take their reset state
(R24). -/
def partSwitch (s : State) (p : Nat) : State :=
  let s := resetFsps s p
  let s := ((configured s.fab.active).filter fun r => regionPart s r == p).foldl (fun s r => initRegion s r false) s
  let s := ((List.range 4).filter fun h => hartPart s h == p).foldl hartReset s
  pinsSwitch (((List.range 192).filter fun k => segPart s k == p).foldl segRestart s) p

/-- PRT_EN takes effect (R22, R24). -/
def prtEnApply (s : State) (val : Nat) : State :=
  let new : Word := BitVec.ofNat 16 (Nat.lor val 1)
  let changed := (List.range 16).filter fun p => new.getLsbD p != (dev s 0x20004 1).getLsbD p
  if s.fab.pers ≠ 0 then s else lanesSettle (changed.foldl partSwitch (setDev s 0x20004 1 new))

/-- PRT_RGN takes effect: the banks of each region that changes owner begin to cross (R130). -/
def prtRgnApply (s : State) (k : Nat) (val : Word) : State :=
  let old := fun j => regionPart s (4 * k + j)
  let moved := (List.range 4).filter fun j => fld val.toNat (4 * j + 3) (4 * j) != old j
  moved.foldl (fun s j => crossBanks s (4 * k + j) (old j)) (setDev s (0x20100 + 4 * k) 0 val)

/-- QE_MIGRATE is decided, and QE_MIGSTAT takes the outcome (R235). -/
def migrateReg (s : State) (v : View) (q : Nat) : State :=
  let (st, s) := migrate s (viewPart s v) q (vw s v 0x40300 0).toNat (vw s v 0x40304 0).toNat
  { s with qe := { s.qe with mig := tset {} s.qe.mig (viewCode v) ⟨false, q, st⟩ } }

/-- QE_MIGSTAT while the command waits for its record. -/
def migratePend (s : State) (v : View) (q : Nat) : State :=
  { s with qe := { s.qe with mig := tmod {} s.qe.mig (viewCode v) fun m => { m with pend := true, qid := q } } }

/-- A segment port changes owner: its PHY starts anew under the new partition. -/
def segOwnApply (s : State) (k : Nat) (val : Word) : State :=
  let t := setDev s (0x60000 + 4 * k) 0 val
  if segPart t k = segPart s k then t else segRestart t k

/-- JRN_CTL and JRN_SHARE take effect: places that every sink has taken free, shares fill, buffers fill (R396, R397). -/
def jrnSettle (s : State) : State := fillJbufs (noteFull (sweepRing s))

/-- A two-word RW register takes both words (R44). -/
def storePair (s : State) (r : RegRow) (i : Nat) (v : View) (val : Nat) : State :=
  let off := r.off i
  let hi := wordAt val 1
  let lo := wordAt val 0
  match r.store with
  | .dev => setDev (setDev s (off - 4) 0 hi) off (r.resetAt i) lo
  | .view => setVw (setVw s v (off - 4) 0 hi) v off (r.resetAt i) lo
  | .part => s

/-- What an accepted write does to a register without rules of its own. -/
def storeApply (s : State) (v : View) (r : RegRow) (i val : Nat) : State :=
  let x : Word := BitVec.ofNat 16 (Nat.land val r.mask)
  match r.cls with
  | .ro | .wo => s
  | .w1c => setStored s r i v (clearBits (stored s r i v) (BitVec.ofNat 16 val) r.mask)
  | _ => if r.half = .lo then storePair s r i v val else setStored s r i v x

/-- What an accepted write does. -/
def regApply (s : State) (v : View) (r : RegRow) (i val : Nat) : State :=
  let x : Word := BitVec.ofNat 16 (Nat.land val r.mask)
  let w : Word := BitVec.ofNat 16 val
  match r.reg with
  | .sysFwctl => if bit val 14 then cancelFramed s v else s
  | .mbxSelLo => mbxSelect s v val
  | .sysRsel => rselApply s v val
  | .cfgLdcmd => ldcmdApply s v val
  | .cfgFdat => fdatApply s w
  | .cfgSwpcmd => swpcmdApply s v val
  | .prtEn => prtEnApply s val
  | .prtRgn => prtRgnApply s i w
  | .bnkOwn => bankOwnApply s i val
  | .bnkWwc => setStored s r i v (clearBits (stored s r i v) (w &&& wwcMask s v i) 0xFFFF)
  | .bnkRetire => bnkRetireApply s (val % 2048)
  | .qeQselLo => queueApply s (val % 0x100000) (qcfgWords s v)
  | .qeFspb => fspBApply s i x
  | .qeMigrateLo => migrateReg s v (val % 0x100000)
  | .timStat => if bit val 12 then { s with clk := { s.clk with refSeen := false } } else s
  | .timFlen => lengthApply s 0x50008 0x00FA w
  | .timHlen => lengthApply s 0x5000C 0 x
  | .timLdsecLo => { s with clk := { s.clk with ldsec := some (val % 2 ^ 32) } }
  | .timArange => arangeApply s i x
  | .timPgcmd => pgcmdApply s v val
  | .timAidxLo => aidxApply s v val
  | .segOwn => segOwnApply s i x
  | .segCtl => segCtlApply s i x
  | .segRsel => rosterApply s v val
  | .lnkCtl => lnkCtlApply s i x
  | .memWin => memWinApply s i w
  | .memLogpop => popLog s (val % 4)
  | .memRetireLo => memRetireApply s val
  | .flsUqLo => quotaApply s i val
  | .pinOwn => pinsSettle (storeApply s v r i val)
  | .pinCfg => pinCfgApply s i false w
  | .pinAux => pinCfgApply s i true w
  | .pinOut => gpioApply s v 0 i w
  | .pinSet => gpioApply s v 1 i w
  | .pinClr => gpioApply s v 2 i w
  | .pinTgl => gpioApply s v 3 i w
  | .pinOe => gpioApply s v 4 i w
  | .pinTsel => tselApply s v val
  | .pinTpop => tpopApply s v val
  | .pinPsel => pselApply s v val
  | .pinSctl => sctlApply s i x
  | .pinSstat => setSerial s i { serialOf s i with
      rxovf := (serialOf s i).rxovf && !bit val 12, err := (serialOf s i).err && !bit val 11 }
  | .pinSdat => sdatApply s i w
  | .evtRte => evtRteApply (storeApply s v r i val) i
  | .evtClr => evtClrApply s v val
  | .pwrMode => pwrModeApply s val
  | .pwrPadRelease => padRelease s w
  | .pwrRstcause => { s with pwr := { s.pwr with rstCause := clearBits s.pwr.rstCause w r.mask } }
  | .pwrReset => deviceReset s 13
  | .pwrPrst => if bit val 0 then partitionReset s (viewPart s v) else s
  | .jrnCtl | .jrnShare => jrnSettle (storeApply s v r i val)
  | .jrnStat => { s with jrn := { s.jrn with
      missed := s.jrn.missed && !bit val 14, spillErr := s.jrn.spillErr && !bit val 13 } }
  | .dbgCcmd => if bit val 15 then challenge s (val % 8) else s
  | .dbgRdat => rdatApply s v w
  | .dbgRcmd => rcmdApply s v val
  | .dbgCtl => if bit val 15 then { s with lc := { s.lc with opened := true } } else s
  | .dbgCapcmd => captureApply s v val
  | .dbgPrgn => prgnApply s v val
  | .hrtCtl => hrtCtlApply s i w
  | _ => storeApply s v r i val

end Sys2Proof.Machine
end

