-- ==== Sys2Proof/Machine/Commit.lean ====
section
/-! DEFINITION. The journal writer: an intake entry is committed, and the changes it stands for take effect or are
refused (R394 to R396). -/

namespace Sys2Proof.Machine

/-- A register write of a view completes on the bus: its view holds the status, and an open side-port transaction returns
it (R49, R50, R52). -/
def finishWrite (s : State) (v : View) (st : Nat) : State :=
  match v with
  | .side =>
    if s.side.acc.inProgress && s.side.acc.write then
      let s := { s with side := { s.side with acc := endAccess s.side.acc st s.side.acc.data } }
      if s.side.selected then emit s (.miso [BitVec.ofNat 8 st]) else s
    else s
  | .jtag =>
    if s.tap.acc.inProgress && s.tap.acc.write then
      { s with tap := { s.tap with acc := endAccess s.tap.acc st s.tap.acc.data } }
    else s
  | _ => s

/-- QE_MIGSTAT when its command was refused by the journal. -/
def migrateFull (s : State) (v : View) : State :=
  { s with qe := { s.qe with mig := tmod {} s.qe.mig (viewCode v) fun m => { m with pend := false, status := stJournalFull } } }

/-- A journaled write of a view takes effect, or is refused with JOURNAL_FULL (R43, R396). -/
def writeCommitted (s : State) (v : View) (off val : Nat) (ok : Bool) : State :=
  if ok then
    finishWrite (match findReg off with
      | some (r, i, _) => regApply s v r i val
      | none => s) v stOk
  else
    let s := if off = 0x4030C then migrateFull s v else s
    finishWrite (regErr s v stJournalFull) v stJournalFull

/-- A framed write of a view becomes pending, or is refused (R43). -/
def framedCommitted (s : State) (v : View) (off : Nat) (val : Word) (ok : Bool) : State :=
  if ok then finishWrite (putFramed s ⟨v, off, val⟩) v stOk
  else finishWrite (regErr s v stJournalFull) v stJournalFull

/-- The LOAD_START record of the running load is committed, or refused (R396, Table 7-6). -/
def loadCommitted (s : State) (ok : Bool) : State :=
  match s.ldr.running with
  | some l =>
    if l.phase ≠ .journal then s
    else if ok then setRunning s (some { l with phase := .stream })
    else loadFail s l stJournalFull lcNone
  | none => s

/-- DBG_CTL.OPEN opens a session, or is refused (R385). -/
def sessionCommitted (s : State) (v : View) (ok : Bool) : State :=
  if ok then finishWrite { s with lc := { s.lc with opened := true } } v stOk
  else finishWrite (regErr s v stJournalFull) v stJournalFull

/-- A capture command takes effect, or is refused (R400, R402). -/
def captureCommitted (s : State) (v : View) (val : Word) (ok : Bool) : State :=
  if ok then finishWrite (captureApply s v val.toNat) v stOk
  else finishWrite (setCapStatus (regErr s v stJournalFull) v stJournalFull) v stJournalFull

/-- A firmware package is stored, or refused (R328). -/
def fwCommitted (s : State) (version : Nat) (pkg : List Byte) (ok : Bool) : State :=
  if ok then endWork { s with mgt := { s.mgt with stored := some (version, pkg) } } 0 0x0030 stOk []
  else endWork s 0 0x0030 stJournalFull []

/-- A change takes effect with its record, or is refused with JOURNAL_FULL (R394, R396). -/
def applyChange (s : State) (c : Change) (ok : Bool) : State :=
  match c with
  | .done => s
  | .reg v off val => writeCommitted s v off val ok
  | .framed v off val => framedCommitted s v off val ok
  | .refusedWrite v _ st => finishWrite s v st
  | .loadStart => loadCommitted s ok
  | .swap p cg keep f b r _ => swapCommitted s p cg keep f b r ok
  | .flip p b => flipCommitted s p b ok
  | .afile p => bulkCommitted s p ok
  | .lcStep _ step word => lcStepCommitted s step word ok
  | .key slot k chk => keyCommitted s slot k chk ok
  | .token w => tokenCommitted s w ok
  | .grant scope => grantCommitted s scope ok
  | .session v => sessionCommitted s v ok
  | .capture v val => captureCommitted s v val ok
  | .fwUpdate n pkg => fwCommitted s n pkg ok

/-- The journal writer commits one record: a MISSED record that is due, or the oldest intake entry with its changes
(R394 to R396). -/
def journalStep (s : State) : State :=
  match missedEntry s with
  | some e =>
    let s := (commitRecord s e).2
    { s with jrn := { s.jrn with missedCount := 0 } }
  | none =>
    match s.jrn.intake with
    | [] => s
    | e :: _ =>
      let (ok, s) := commitRecord (popIntake s) e
      e.changes.foldl (fun s c => applyChange s c ok) s

/-- The journal writer runs: M2 to M7, M10 and M11, after the release of reset (Table 1-3). -/
def writerRuns (s : State) : Bool := s.clk.started && s.mode.busUp

/-- JOURNAL_COMMIT: one record every 2 CLK_M cycles (R394). -/
def execJournalCommit (s : State) : Result := .next (if writerRuns s then journalStep s else s)

/-- A register write waits for its record (R394). -/
def writeWaits (s : State) : Bool :=
  (s.jrn.intake ++ s.jrn.waiting).any fun e => e.changes.any fun c => (changeView c).isSome

/-- Records are committed until no register write waits, with fuel. -/
def commitUntil : Nat → State → State
  | 0, s => s
  | n + 1, s => if writeWaits s then commitUntil n (journalStep s) else s

/-- The bus serves one access at a time and waits for the record of a write (R37, R394): whatever it serves next finds
the writes before it complete. -/
def settle (s : State) : State := commitUntil (2 * (s.jrn.intake.length + s.jrn.waiting.length) + 2) s

end Sys2Proof.Machine
end

