-- ==== Sys2Proof/Machine/Bus.lean ====
section
/-! DEFINITION. The register bus: one access at a time, writes with their refusals and their journal records, reads with
their effects, and the commands that are the write of one register (R34 to R48, R393, R394). -/

namespace Sys2Proof.Machine

/-! ### Writes -/

/-- How a write is journaled (R43, R393): a command whose effect has a kind of its own in Table 19-3 writes only that
record. -/
inductive Journaling where
  | none
  | write
  | framed
  | session
  | capture
  deriving DecidableEq, Repr

/-- The effect of a command register's write has a record kind of its own, which its engine writes (R393). -/
def ownKind (r : Reg) (val : Nat) : Bool :=
  match r with
  | .cfgLdcmd => val % 16 == 1
  | .cfgSwpcmd | .timPgcmd => fld val 15 14 == 1
  | .dbgRcmd => bit val 15
  | _ => false

/-- How an accepted write is journaled. -/
def journaling (r : RegRow) (val : Nat) : Journaling :=
  if !r.jrn || ownKind r.reg val then .none
  else if r.reg = .dbgCtl ∧ bit val 15 then .session
  else if r.reg = .dbgCapcmd then .capture
  else if r.cls = .rwf then .framed
  else .write

/-- The value a register holds before a write, _HI:_LO for a two-word commit (Table 19-3). -/
def oldValue (s : State) (v : View) (r : RegRow) (i : Nat) : Nat :=
  let lo := (regWord s v r i).toNat
  if r.half = .lo then
    match findReg (r.off i - 4) with
    | some (h, j, _) => (regWord s v h j).toNat * 65536 + lo
    | none => lo
  else lo

/-- A refused write (R39, R393, R430): LAST and the flags at once, and a REFUSED record where the register is journaled.
Answers the status where the write has ended, nothing where it waits for the record. -/
def refuseWrite (s : State) (v : View) (r : RegRow) (i val st : Nat) : State × Option Nat :=
  let s := regErr s v st
  let s := if r.reg = .dbgCapcmd then setCapStatus s v st else s
  if r.jrn then
    (journal s (viewRec s v 0x03 st (r.off i) (oldValue s v r i) val) true 1 (.refusedWrite v (r.off i) st), none)
  else (s, some st)

/-- An accepted write: it takes effect at once, or with its record (R43, R394). -/
def acceptWrite (s : State) (v : View) (r : RegRow) (i val : Nat) : State × Option Nat :=
  let off := r.off i
  let rec_ := fun kind new => viewRec s v kind stOk off (oldValue s v r i) new
  match journaling r val with
  | .none => (regApply s v r i val, some stOk)
  | .write =>
    let t := journal s (rec_ 0x01 val) true 1 (.reg v off val)
    (if r.reg = .qeMigrateLo then migratePend t v (val % 0x100000) else t, none)
  | .framed =>
    let x : Word := BitVec.ofNat 16 (Nat.land val r.mask)
    (journal s (rec_ 0x02 x.toNat) true 1 (.framed v off x), none)
  | .session => (journal s (engRec 4 0 0 0x0F stOk 0 0 1) true 1 (.session v), none)
  | .capture => (journal s (captureRec s v val) true 1 (.capture v (BitVec.ofNat 16 val)), none)

/-- A write that changes nothing by its class: RO, or BNK_OWN outside PF0's view, where it is read only. -/
def readOnly (s : State) (v : View) (r : RegRow) : Bool := r.cls == .ro || (r.reg == .bnkOwn && !fullView s v)

/-- The register at an offset stands in a stopped domain: an access of a view that sees it ends in a completer abort
(R48). -/
def busAborts (s : State) (v : View) (off : Nat) : Bool :=
  match findReg off with
  | some (r, i, _) => visible s v r i && domainStopped s r.reg.domain
  | none => false

/-- The bus serves a write of a register (R35, R36, R38, R44). A write that lacks a byte enable is ignored and reports
INVALID before LOCKED or any other refusal is looked at, and leaves no record (DEDUCED, log 11). -/
def serveWrite (s : State) (v : View) (off : Nat) (be : BitVec 4) (val : Word) : State × Option Nat :=
  match findReg off with
  | none => (s, some stOk)
  | some (r, i, _) =>
    if !visible s v r i then (s, some stOk)
    else if !(be.getLsbD 0 && be.getLsbD 1) then (regErr s v stInvalid, some stInvalid)
    else if readOnly s v r then (s, some stOk)
    else if r.half = .hi then
      ({ s with hold := tset 0 s.hold (viewKey (viewCode v) off) val }, some stOk)
    else
      let n := if r.half = .lo then (holding s v (off - 4)).toNat * 65536 + val.toNat else val.toNat
      match writeCheck s v r i n with
      | some st => refuseWrite s v r i n st
      | none => acceptWrite s v r i n

/-- A register write of a view: the state after it, and its status where it completes at once. The bus is up in M2 to
M7, M10 and M11 (Table 1-3). -/
def busWrite (s : State) (v : View) (off : Nat) (be : BitVec 4) (val : Word) : State × Option Nat :=
  if s.mode.busUp then
    let s := settle s
    if busAborts s v off then (regErr s v stAborted, some stAborted) else serveWrite s v off be val
  else (s, some stOk)

/-! ### Reads -/

/-- A register read of a view: its status, the word and the state after it. A read that a completer abort ends gives
0x0000 (R48). -/
def busRead (s : State) (v : View) (off : Nat) : Nat × Word × State :=
  if s.mode.busUp then
    let s := settle s
    if busAborts s v off then (stAborted, 0, regErr s v stAborted) else (stOk, peek s v off, readEffect s v off)
  else (stOk, 0, s)

/-! ### A named register -/

/-- A view writes register i of a kind. -/
def writeReg (reg : Reg) (i : Nat) (v : View) (val : Nat) (s : State) : State :=
  match regOffset reg i with
  | some off => (busWrite s v off 0xF (BitVec.ofNat 16 val)).1
  | none => s

/-- A view reads register i of a kind, and takes the data. -/
def readReg (reg : Reg) (i : Nat) (v : View) (s : State) : State :=
  match regOffset reg i with
  | some off =>
    let (st, w, s) := busRead s v off
    emit s (if st = stOk then .readData v off w else .completerAbort v off)
  | none => s

/-! ### Generic writes -/

/-- REGISTER_WRITE. -/
def execRegisterWrite (v : View) (off : Nat) (be : BitVec 4) (val : BitVec 32) (s : State) : Result :=
  .next (busWrite s v off be (BitVec.ofNat 16 val.toNat)).1

/-- HI_WRITE: the write of a _HI register (R44). -/
def execHiWrite (v : View) (off : Nat) (val : Word) (s : State) : Result :=
  .next (match findReg off with
    | some (r, _, _) => if r.half = .hi then (busWrite s v off 0xF val).1 else s
    | none => s)

/-- FRAMED_WRITE: the write of an RWF register or its _STG view (R40, R41). -/
def execFramedWrite (v : View) (off : Nat) (val : Word) (s : State) : Result :=
  .next (match findReg off with
    | some (r, _, _) => if r.cls = .rwf then (busWrite s v off 0xF val).1 else s
    | none => s)

/-- CANCEL. -/
def execCancel (v : View) (s : State) : Result := .next (writeReg .sysFwctl 0 v 0x4000 s)

/-- A hart's register access at an offset faults: a load leaves no result; a store, the oldest of the store buffer, leaves
it without effect (R48, R334, R336). -/
def hartAborts (s : State) (h off : Nat) (write : Bool) : State :=
  let a : BitVec 32 := BitVec.ofNat 32 (0x20000000 + off)
  let x := hartOf s h
  if write then
    match x.store with
    | e :: es => if wordAddr e.addr == a then storeFault (setHart s h { x with store := es }) h e.addr else s
    | [] => s
  else match hartAct s h with
    | .load _ b _ _ => if hartReady s h && wordAddr b == a then trap s h false 5 b else s
    | _ => s

/-- The access that a completer abort ends, as its view sees it: the side port and JTAG read 0x0000, and the side port
returns the status first (R48, Table 2-5); an aborted write keeps the value written as the access's data (R52; DEDUCED, log 120). -/
def abortAccess (s : State) (v : View) (off : Nat) (write : Bool) (val : Word) : State :=
  let a : PortAccess := ⟨true, write, off, if write then val else 0, stAborted, false⟩
  match v with
  | .pf0 | .vf _ => if write then s else emit s (.completerAbort v off)
  | .hart h => hartAborts s h off write
  | .side =>
    let s := emit { s with side := { s.side with acc := a, selected := true } } (.miso [0xFF, 0xFF, 0xFF, 0xFF])
    emit (emit s .misoWait) (.miso (BitVec.ofNat 8 stAborted :: (if write then [] else [0, 0])))
  | .jtag => { s with tap := { s.tap with acc := a } }
  | .chaty => s

/-- REGISTER_ABORT: an access to a register whose domain is stopped is dropped, and sets SYS_REGERR.ABT (R48). -/
def execRegisterAbort (v : View) (off : Nat) (write : Bool) (s : State) (val : Word := 0) : Result :=
  let s' := settle s
  .next (if s.mode.busUp && busAborts s' v off then abortAccess (regErr s' v stAborted) v off write val else s)

/-! ### Partitions, Bridge, banks -/

/-- PRT_CTL_LOCK. -/
def execPrtCtlLock (v : View) (s : State) : Result := .next (writeReg .prtCtl 0 v 0x8000 s)

/-- PRT_RGN_WRITE. -/
def execPrtRgnWrite (v : View) (k : Nat) (val : Word) (s : State) : Result := .next (writeReg .prtRgn k v val.toNat s)

/-- BRG_GATE_WRITE. -/
def execBrgGateWrite (v : View) (k : Nat) (val : Word) (s : State) : Result := .next (writeReg .brgGate k v val.toNat s)

/-- BANK_HANDOVER. -/
def execBankHandover (v : View) (b : Nat) (val : Word) (s : State) : Result := .next (writeReg .bnkOwn b v val.toNat s)

/-- BNK_RETIRE. -/
def execBnkRetire (v : View) (val : Word) (s : State) : Result := .next (writeReg .bnkRetire 0 v val.toNat s)

/-! ### Loads -/

/-- START_SIDE. -/
def execStartSide (v : View) (s : State) : Result := .next (writeReg .cfgLdcmd 0 v 1 s)

/-- CFG_FDAT_WRITE. -/
def execCfgFdatWrite (v : View) (val : Word) (s : State) : Result := .next (writeReg .cfgFdat 0 v val.toNat s)

/-- ABORT. -/
def execAbort (v : View) (s : State) : Result := .next (writeReg .cfgLdcmd 0 v 2 s)

/-! ### Time and the Almanac -/

/-- SYSTIME_LOAD. -/
def execSystimeLoad (v : View) (lo : Word) (s : State) : Result := .next (writeReg .timLdsecLo 0 v lo.toNat s)

/-- TIM_CTL_WRITE. -/
def execTimCtlWrite (v : View) (val : Word) (s : State) : Result := .next (writeReg .timCtl 0 v val.toNat s)

/-- TIM_FLEN_WRITE. -/
def execTimFlenWrite (v : View) (val : Word) (s : State) : Result := .next (writeReg .timFlen 0 v val.toNat s)

/-- TIM_HLEN_WRITE. -/
def execTimHlenWrite (v : View) (val : Word) (s : State) : Result := .next (writeReg .timHlen 0 v val.toNat s)

/-- TIM_ARANGE_WRITE. -/
def execTimArangeWrite (v : View) (p : Nat) (val : Word) (s : State) : Result := .next (writeReg .timArange p v val.toNat s)

/-- ALMANAC_ENTRY_WRITE. -/
def execAlmanacEntryWrite (v : View) (lo : Word) (s : State) : Result := .next (writeReg .timAidxLo 0 v lo.toNat s)

/-! ### Queues, rings, ports, links -/

/-- QUEUE_CONFIG. -/
def execQueueConfig (v : View) (lo : Word) (s : State) : Result := .next (writeReg .qeQselLo 0 v lo.toNat s)

/-- FSP_RING_ENABLE: a QE_FSPB write that sets EN (R222). -/
def execFspRingEnable (v : View) (k : Nat) (val : Word) (s : State) : Result :=
  .next (if val.getLsbD 15 then writeReg .qeFspb k v val.toNat s else s)

/-- FSP_OWNER_WRITE. -/
def execFspOwnerWrite (v : View) (k : Nat) (val : Word) (s : State) : Result := .next (writeReg .qeFspown k v val.toNat s)

/-- RING_CONFIG. -/
def execRingConfig (v : View) (val : Word) (s : State) : Result := .next (writeReg .sysRsel 0 v val.toNat s)

/-- SEG_CTL_WRITE. -/
def execSegCtlWrite (v : View) (k : Nat) (val : Word) (s : State) : Result := .next (writeReg .segCtl k v val.toNat s)

/-- ROSTER_COMMIT. -/
def execRosterCommit (v : View) (val : Word) (s : State) : Result := .next (writeReg .segRsel 0 v val.toNat s)

/-- LINK_ENABLE: an LNK_CTL write with EN 1. -/
def execLinkEnable (v : View) (k : Nat) (val : Word) (s : State) : Result :=
  .next (if val.getLsbD 15 then writeReg .lnkCtl k v val.toNat s else s)

/-- LINK_DISABLE: an LNK_CTL write with EN 0. -/
def execLinkDisable (v : View) (k : Nat) (val : Word) (s : State) : Result :=
  .next (if val.getLsbD 15 then s else writeReg .lnkCtl k v val.toNat s)

/-! ### External memory -/

/-- WINDOW_FILL. -/
def execWindowFill (v : View) (w : Nat) (val : Word) (s : State) : Result := .next (writeReg .memWin w v val.toNat s)

/-- MEM_LOGPOP. -/
def execMemLogpop (v : View) (val : Word) (s : State) : Result := .next (writeReg .memLogpop 0 v val.toNat s)

/-- MEM_RETIRE. -/
def execMemRetire (v : View) (lo : Word) (s : State) : Result := .next (writeReg .memRetireLo 0 v lo.toNat s)

/-- QUOTA_COMMIT. -/
def execQuotaCommit (v : View) (p : Nat) (lo : Word) (s : State) : Result := .next (writeReg .flsUqLo p v lo.toNat s)

/-! ### Harts -/

/-- HART_RUN: an HRT_CTL write without RST. -/
def execHartRun (v : View) (h : Nat) (val : Word) (s : State) : Result :=
  .next (if val.getLsbD 14 then s else writeReg .hrtCtl h v val.toNat s)

/-- RST: an HRT_CTL write with RST. -/
def execRst (v : View) (h : Nat) (val : Word) (s : State) : Result :=
  .next (if val.getLsbD 14 then writeReg .hrtCtl h v val.toNat s else s)

/-! ### Pins and events -/

/-- EVT_CLAIM. -/
def execEvtClaim (v : View) (h : Nat) (s : State) : Result := .next (readReg .evtClaim h v s)

/-- PIN_CONFIG_WRITE: PIN_CFG, or PIN_AUX. -/
def execPinConfigWrite (v : View) (pin : Nat) (aux : Bool) (val : Word) (s : State) : Result :=
  .next (writeReg (if aux then .pinAux else .pinCfg) pin v val.toNat s)

/-- PIN_SET. -/
def execPinSet (v : View) (g : Nat) (val : Word) (s : State) : Result := .next (writeReg .pinSet g v val.toNat s)

/-- PIN_CLR. -/
def execPinClr (v : View) (g : Nat) (val : Word) (s : State) : Result := .next (writeReg .pinClr g v val.toNat s)

/-- PIN_TGL. -/
def execPinTgl (v : View) (g : Nat) (val : Word) (s : State) : Result := .next (writeReg .pinTgl g v val.toNat s)

/-- EDGE_COMMIT. -/
def execEdgeCommit (v : View) (val : Word) (s : State) : Result := .next (writeReg .pinTsel 0 v val.toNat s)

/-- PIN_TPOP. -/
def execPinTpop (v : View) (val : Word) (s : State) : Result := .next (writeReg .pinTpop 0 v val.toNat s)

/-- PATTERN_COMMIT. -/
def execPatternCommit (v : View) (val : Word) (s : State) : Result := .next (writeReg .pinPsel 0 v val.toNat s)

/-- SERIAL_CONTROL_WRITE. -/
def execSerialControlWrite (v : View) (u : Nat) (val : Word) (s : State) : Result :=
  .next (writeReg .pinSctl u v val.toNat s)

/-- SERIAL_BYTE_WRITE. -/
def execSerialByteWrite (v : View) (u : Nat) (val : Word) (s : State) : Result := .next (writeReg .pinSdat u v val.toNat s)

/-- LAST: a byte with [8] on an SPI unit. -/
def execLast (v : View) (u : Nat) (byte : Byte) (s : State) : Result :=
  .next (writeReg .pinSdat u v (0x100 + byte.toNat) s)

/-- START: a byte with [8] on an I2C unit. -/
def execStart (v : View) (u : Nat) (byte : Byte) (s : State) : Result :=
  .next (writeReg .pinSdat u v (0x100 + byte.toNat) s)

/-- STOP: a byte with [9]. -/
def execStop (v : View) (u : Nat) (byte : Byte) (s : State) : Result :=
  .next (writeReg .pinSdat u v (0x200 + byte.toNat) s)

/-- READ_BYTE: [10], with [11] to send NACK. -/
def execReadByte (v : View) (u : Nat) (nack : Bool) (s : State) : Result :=
  .next (writeReg .pinSdat u v (0x400 + place nack 11) s)

/-- SERIAL_DATA_READ. -/
def execSerialDataRead (v : View) (u : Nat) (s : State) : Result := .next (readReg .pinSdat u v s)

/-- EVT_CLR. -/
def execEvtClr (v : View) (val : Word) (s : State) : Result := .next (writeReg .evtClr 0 v val.toNat s)

/-- EVT_RTE_WRITE. -/
def execEvtRteWrite (v : View) (src : Nat) (val : Word) (s : State) : Result := .next (writeReg .evtRte src v val.toNat s)

/-! ### Power -/

/-- DOZE. -/
def execDoze (v : View) (s : State) : Result := .next (writeReg .pwrMode 0 v 7 s)

/-- SLEEP. -/
def execSleep (v : View) (s : State) : Result := .next (writeReg .pwrMode 0 v 8 s)

/-- DEEP. -/
def execDeep (v : View) (s : State) : Result := .next (writeReg .pwrMode 0 v 9 s)

/-- CANCEL_OR_WAKE. -/
def execCancelOrWake (v : View) (s : State) : Result := .next (writeReg .pwrMode 0 v 5 s)

/-- PWR_PAD_RELEASE. -/
def execPwrPadRelease (v : View) (val : Word) (s : State) : Result := .next (writeReg .pwrPadRelease 0 v val.toNat s)

/-- PWR_RESET. -/
def execPwrReset (v : View) (val : Word) (s : State) : Result := .next (writeReg .pwrReset 0 v val.toNat s)

/-- PWR_PRST. -/
def execPwrPrst (v : View) (val : Word) (s : State) : Result := .next (writeReg .pwrPrst 0 v val.toNat s)

/-! ### Debug and capture -/

/-- DBG_CCMD. -/
def execDbgCcmd (v : View) (val : Word) (s : State) : Result := .next (writeReg .dbgCcmd 0 v val.toNat s)

/-- DBG_RDAT. -/
def execDbgRdat (v : View) (val : Word) (s : State) : Result := .next (writeReg .dbgRdat 0 v val.toNat s)

/-- GO. -/
def execGo (v : View) (s : State) : Result := .next (writeReg .dbgRcmd 0 v 0x8000 s)

/-- CLR. -/
def execClr (v : View) (s : State) : Result := .next (writeReg .dbgRcmd 0 v 0x4000 s)

/-- OPEN. -/
def execOpenSession (v : View) (s : State) : Result := .next (writeReg .dbgCtl 0 v 0x8000 s)

/-- FREEZE: DBG_CAPCMD with CMD 1. -/
def execFreeze (v : View) (val : Word) (s : State) : Result :=
  .next (if fld val.toNat 15 14 = 1 then writeReg .dbgCapcmd 0 v val.toNat s else s)

/-- RELEASE: DBG_CAPCMD with CMD 2. -/
def execRelease (v : View) (val : Word) (s : State) : Result :=
  .next (if fld val.toNat 15 14 = 2 then writeReg .dbgCapcmd 0 v val.toNat s else s)

/-- DBG_PRGN. -/
def execDbgPrgn (v : View) (val : Word) (s : State) : Result := .next (writeReg .dbgPrgn 0 v val.toNat s)

/-- DBG_PLINE_WRITE. -/
def execDbgPlineWrite (v : View) (k : Nat) (val : Word) (s : State) : Result := .next (writeReg .dbgPline k v val.toNat s)

end Sys2Proof.Machine
end

