-- ==== Sys2Proof/Machine/Entry.lean ====
section
/-! DEFINITION. Low-power entry begins: the records that wait are committed, with the MODE record last (R363, R364). -/

namespace Sys2Proof.Machine

/-- Records are committed until the intake is empty, with fuel. -/
def commitAll : Nat → State → State
  | 0, s => s
  | n + 1, s => if s.jrn.intake.isEmpty then s else commitAll n (journalStep s)

/-- Every record in the intake and behind it is committed, with the records that these changes make. -/
def drainIntake (s : State) : State := commitAll (2 * (s.jrn.intake.length + s.jrn.waiting.length) + 64) s

/-- Entry: the changes already journaled take effect first; a request that still waits then begins its steps with the
MODE record's commit, and the F1 edges that follow take the others (Table 17-3). -/
def entryBegin (s : State) : State :=
  let s := drainIntake s
  if entryDue s then
    drainIntake (journal (entryStart s) (engRec 5 0 0 0x10 stOk 0 s.mode.code s.pwr.target) false 1 .done)
  else s

/-- ENTRY_BEGIN. -/
def execEntryBegin (s : State) : Result := .next (if entryDue s then entryBegin s else s)

end Sys2Proof.Machine
end

