-- ==== Sys2Proof/Machine/HartOps.lean ====
section
/-! DEFINITION. The memory instructions of the application harts: loads, stores and their buffer, LR, SC and AMOs (R333 to
R337). -/

namespace Sys2Proof.Machine

/-! ### The store buffer (R336) -/

/-- A buffered store holds a byte. -/
def SEntry.holds (e : SEntry) (a : Nat) : Bool := decide (e.addr.toNat ≤ a) && decide (a < e.addr.toNat + e.bytes.length)

/-- The byte that the youngest buffered store holds for an address. -/
def buffered (x : Hart) (a : Nat) : Option Byte :=
  match x.store.reverse.find? (·.holds a) with
  | some e => some (nthD 0 e.bytes (a - e.addr.toNat))
  | none => none

/-- The bytes of an access, if the buffer holds all of them. -/
def bufferedAll (x : Hart) (a n : Nat) : Option (List Byte) :=
  (upto a n).foldr (fun k t => match buffered x k, t with
    | some b, some bs => some (b :: bs)
    | _, _ => none) (some [])

/-- The buffer holds some byte of an access. -/
def overlaps (x : Hart) (a n : Nat) : Bool := (upto a n).any fun k => (buffered x k).isSome

/-- The hart waits for a port B request. -/
def awaits (s : State) (h : Nat) (addr : BitVec 32) (b a : Nat) (acc : Acc) (w : Nat → HartWait) : State :=
  let (id, s) := portBRequest s (2 + h) (hartPart s h) b a acc
  setHart s h { hartOf s h with wait := some (w id), waitAddr := addr }

/-- A write of the hart to a word ends its reservation of the word (R337). -/
def ownWrite (x : Hart) (a n : Nat) : Hart :=
  match x.reservation with
  | some w => if (upto a n).any fun k => k / 4 == w.toNat / 4 then { x with reservation := none } else x
  | none => x

/-! ### Loads and stores -/

/-- A load that a hart carries out now. -/
def hartLoad (s : State) (h rd : Nat) (addr : BitVec 32) (n : Nat) (sg : Bool) : State :=
  let x := hartOf s h
  match targetOf addr.toNat n with
  | .misaligned => trap s h false 4 addr
  | .outside => trap s h false 5 addr
  | .view off lane =>
    if !x.store.isEmpty then s
    else
      let (st, w, s) := busRead s (.hart h) off
      if st = stOk then setHart s h (retire (setX (hartOf s h) rd (loadValue n sg (w.toNat / 2 ^ (8 * lane)))))
      else trap s h false 5 addr
  | .bank b a =>
    match bufferedAll x addr.toNat n with
    | some bs => setHart s h (retire (setX x rd (loadValue n sg (leVal bs))))
    | none => if overlaps x addr.toNat n then s else awaits s h addr b a (.read n) (.load rd n sg false)

/-- HART_LOAD. -/
def execHartLoad (h rd : Nat) (addr : BitVec 32) (bytes : Nat) (sg : Bool) (s : State) : Result :=
  .next (if hartDoes s h (.load rd addr bytes sg) then hartLoad s h rd addr bytes sg else s)

/-- A store that a hart carries out now: it takes a place of the buffer, or waits for one. -/
def hartStore (s : State) (h : Nat) (addr : BitVec 32) (n : Nat) (data : BitVec 32) : State :=
  let x := hartOf s h
  match targetOf addr.toNat n with
  | .misaligned => trap s h false 6 addr
  | .outside => trap s h false 7 addr
  | _ =>
    if x.store.length ≥ 4 then s
    else
      let x := ownWrite { x with store := x.store ++ [⟨addr, leBytes n data.toNat, none⟩] } addr.toNat n
      setHart s h (retire x)

/-- HART_STORE. -/
def execHartStore (h : Nat) (addr : BitVec 32) (bytes : Nat) (data : BitVec 32) (s : State) : Result :=
  .next (if hartDoes s h (.store addr bytes data) then hartStore s h addr bytes data else s)

/-- The oldest store has been sent under a number. -/
def markSent (s : State) (h id : Nat) : State :=
  let x := hartOf s h
  match x.store with
  | e :: es => setHart s h { x with store := { e with sent := some id } :: es }
  | [] => s

/-- The oldest store leaves the buffer: a port B write, which completes later, or a register write, which completes at
once or with its record. -/
def storeDrain (s : State) (h : Nat) (e : SEntry) : State :=
  match targetOf e.addr.toNat e.bytes.length with
  | .bank b a =>
    let (id, s) := portBRequest s (2 + h) (hartPart s h) b a (.write e.bytes)
    markSent s h id
  | .view off lane =>
    let (s, st) := busWrite (markSent s h 0) (.hart h) off (laneEnables lane e.bytes.length)
      (BitVec.ofNat 16 (leVal e.bytes * 2 ^ (8 * lane)))
    match st with
    | some st =>
      let s := setHart s h { hartOf s h with store := (hartOf s h).store.drop 1 }
      if st = stAborted then storeFault s h e.addr else s
    | none => s
  | _ => s

/-- The oldest store goes out once the store before it has completed (R336). -/
def drainNext (s : State) (h : Nat) : State :=
  match (hartOf s h).store with
  | e :: _ => if decide (h < 4) && e.sent.isNone && hartRuns s h then storeDrain s h e else s
  | [] => s

/-- STORE_DRAIN: one store at a time, in program order (R336). -/
def execStoreDrain (h : Nat) (s : State) : Result := .next (drainNext s h)

/-! ### LR, SC, AMO (R337) -/

/-- A naturally aligned word in a bank, or the exception of a hart's atomic access to it. -/
def atomicTarget (s : State) (h : Nat) (addr : BitVec 32) (misaligned fault : Nat) : (Nat × Nat) ⊕ State :=
  if addr.toNat % 4 ≠ 0 then .inr (trap s h false misaligned addr)
  else match bankOf addr.toNat with
    | some t => .inl t
    | none => .inr (trap s h false fault addr)

/-- An LR that a hart carries out now: the reservation is made when port B serves the read. -/
def hartLr (s : State) (h rd : Nat) (addr : BitVec 32) : State :=
  match atomicTarget s h addr 4 5 with
  | .inr t => t
  | .inl (b, a) =>
    let x := hartOf s h
    if overlaps x addr.toNat 4 then s
    else awaits (setHart s h { x with reservation := none }) h addr b a (.read 4) (.load rd 4 true true)

/-- LR. -/
def execLr (h rd : Nat) (addr : BitVec 32) (s : State) : Result :=
  .next (if hartDoes s h (.lr rd addr) then hartLr s h rd addr else s)

/-- An SC that a hart carries out now: without a reservation of the word it fails at once, with 1 in rd. -/
def hartSc (s : State) (h rd : Nat) (addr data : BitVec 32) (rl : Bool) : State :=
  match atomicTarget s h addr 6 7 with
  | .inr t => t
  | .inl (b, a) =>
    let x := hartOf s h
    if (rl && !x.store.isEmpty) || overlaps x addr.toNat 4 then s
    else if x.reservation = some addr then awaits s h addr b a (.write (leBytes 4 data.toNat)) (.sc rd)
    else setHart s h (retire (setX { x with reservation := none } rd 1))

/-- SC. -/
def execSc (h rd : Nat) (addr data : BitVec 32) (rl : Bool) (s : State) : Result :=
  .next (if hartDoes s h (.sc rd addr data rl) then hartSc s h rd addr data rl else s)

/-- The number of an AMO function. -/
def AmoOp.code : AmoOp → Nat
  | .swap => 0 | .add => 1 | .xor => 2 | .and => 3 | .or => 4 | .min => 5 | .max => 6 | .minu => 7 | .maxu => 8

/-- An AMO that a hart carries out now, by the number of its function. -/
def hartAmo (s : State) (h rd f : Nat) (addr data : BitVec 32) (rl : Bool) : State :=
  match atomicTarget s h addr 6 7 with
  | .inr t => t
  | .inl (b, a) =>
    let x := hartOf s h
    if (rl && !x.store.isEmpty) || overlaps x addr.toNat 4 then s
    else awaits (setHart s h (ownWrite x addr.toNat 4)) h addr b a (.amo f data) (.amo rd)

/-- AMO. -/
def execAmo (h rd : Nat) (op : AmoOp) (addr data : BitVec 32) (rl : Bool) (s : State) : Result :=
  .next (if hartDoes s h (.amo rd (AmoOp.code op) addr data rl) then hartAmo s h rd (AmoOp.code op) addr data rl else s)

end Sys2Proof.Machine
end

