-- ==== Sys2Proof/Machine/HartRun.lean ====
section
/-! DEFINITION. The harts run: fetch, execution, and the F1 edge that moves the fabric, the engines and the harts on (R59,
R332 to R341). -/

namespace Sys2Proof.Machine

/-- A hart carries out what its next instruction does. -/
def hartDo (s : State) (h : Nat) (a : HartAct) : State :=
  match a with
  | .fetch => s
  | .fetchFault a => fetchTrap s h a
  | .exception c v => trap s h false c v
  | .plain y => setHart s h y
  | .load rd addr n sg => hartLoad s h rd addr n sg
  | .store addr n data => hartStore s h addr n data
  | .fence pred tso => hartFence s h pred tso
  | .fenceI => hartFenceI s h
  | .wfi => hartWfi s h
  | .lr rd addr => hartLr s h rd addr
  | .sc rd addr data rl => hartSc s h rd addr data rl
  | .amo rd f addr data rl => hartAmo s h rd f addr data rl

/-- A hart asks for the next word of its prefetch buffer: the word at the pc, then the one after it; a word outside the
banks is known at once to fault (R333 to R335). -/
def hartFetch (s : State) (h : Nat) : State :=
  let x := hartOf s h
  let ask := fun a =>
    match bankOf a.toNat with
    | some (b, o) => awaits s h a b o (.read 4) .fetch
    | none => setHart s h { x with prefetch := x.prefetch ++ [(a, none)] }
  if !hartReady s h then s
  else match x.prefetch with
    | [] => ask (wordAddr x.pc)
    | [(a, some _)] => ask (a + 4)
    | _ => s

/-- The interrupt that a hart takes, or one instruction and a fetch. The manual gives no rate of instructions (DESIGN
CHOICE, log 71). -/
def hartTurn (s : State) (h : Nat) : State :=
  if !hartReady s h then s
  else match hartInterrupt s h with
    | some c => trap s h true c 0
    | none => hartFetch (hartDo s h (hartAct s h)) h

/-- The harts at an F1 edge: what has completed and who wakes, then for each hart its oldest store and, where it runs,
its turn. -/
def hartsEdge (s : State) : State :=
  (List.range 4).foldl (fun t h => let t := drainNext t h; if (hartOf s h).state == .run then hartTurn t h else t)
    ((List.range 4).foldl hartEdge s)

/-- What no command has done in the F1 cycle that ends: event lanes, admission, hard sites, port B (R69, R121, R223). -/
def cycleEnd (s : State) : State :=
  let s := lanesDue s
  portBEdge (siteEdge (if coreRuns s then admissionCycle s else s))

/-- USER_CLOCK_EDGE: one F1 edge; user registers capture where user clocks run, the engines, the FSPs and the harts move
on, and released pads and low-power entry take their steps (R59, R69, R80, R86, R97, R220, R364, R369). -/
def execUserClockEdge (s : State) : Result :=
  .next (if edgeDue s then
      entryTick (padsFreed (hartsEdge (fspAfter (dmaEdge (qeEdge (userClockEdge (fspBefore (cycleEnd s))))))))
    else s)

end Sys2Proof.Machine
end

