-- ==== Sys2Proof/Machine/Mailbox.lean ====
section
/-! DEFINITION. The mailbox: every object that a snapshot can name, and how a snapshot begins and ends (R45 to R47, and
the object of each chapter). -/

namespace Sys2Proof.Machine

/-! ### What a snapshot finds -/

/-- What a snapshot finds: a status, the 128 bits, and the state after it. -/
structure Snap where
  status : Nat
  data : Nat
  after : State

/-- The bits of eight mailbox words, MBX_D0 first. -/
def snapBits (ws : List Nat) : Nat := wordsVal (ws.map (BitVec.ofNat 16 ·))

/-- A snapshot that finds an object: its words, MBX_D0 first; words not named are zero. -/
def found (s : State) (ws : List Nat) : Snap := ⟨stOk, snapBits ws, s⟩

/-- A snapshot that names no object visible in the view (R46). -/
def noObject (s : State) : Snap := ⟨stInvalid, 0, s⟩

/-- A snapshot of an object that the view may read, or of none. -/
def foundIf (s : State) (ok : Bool) (ws : List Nat) : Snap := if ok then found s ws else noObject s

/-- The words of a value, low word first. -/
def wordsIn (n v : Nat) : List Nat := (valWords n v).map (·.toNat)

/-- A 32-bit value as two words. -/
def two (v : Nat) : List Nat := wordsIn 2 v

/-- FTAG: the number of the frame that ended at the last boundary, [7:0]. -/
def frameTag (s : State) : Nat := (frameNo s + 255) % 256

/-! ### Objects by block -/

/-- BLOCK 0x0: ring pairs (R244). -/
def ringObject (s : State) (v : View) (part g : Nat) : Snap :=
  let r := ringOf s g
  let st := match r.state with
    | .disabled => 0
    | .running => 1
    | .draining => 2
    | .error c => 3 + 16 * c
  let gen := r.sqHead / r.sqN % 2 + r.sqTail / r.sqN % 2 * 2 + r.cqTail / r.cqN % 2 * 4 + r.cqHead / r.cqN % 2 * 8
  foundIf s (decide (g < 4096) && ringPart g == viewPart s v && decide (part ≤ 2))
    (match part with
      | 0 => wordsIn 8 r.cfg.toNat
      | 1 => [r.sqHead % r.sqN, r.sqTail % r.sqN, r.cqTail % r.cqN, r.cqHead % r.cqN, gen, st, r.reserved, r.rx.length]
      | _ => wordsIn 4 (r.cfg.toNat / 2 ^ 128))

/-- A region's shadow state as Table 8-1 codes it, for a view that sees the region. -/
def shadowCode (s : State) (v : View) (r : Nat) : Nat :=
  if regionPart s r ≠ viewPart s v then 0
  else match shadowOf s r with
    | .idle => 0
    | .loading => 1
    | .staged _ => 2

/-- BLOCK 0x1: CFG_REGMASK (R162) and the shadow states (Table 8-1). -/
def configObject (s : State) (v : View) (part i : Nat) : Snap :=
  if i = 0 then
    foundIf s (decide (part ≤ 2)) ((List.range 8).map fun k =>
      total ((List.range 16).map fun b => place ((tget [] s.ldr.regmask (viewCode v)).contains (128 * part + 16 * k + b)) b))
  else if i = 1 then
    foundIf s (decide (part ≤ 5)) ((List.range 8).map fun k =>
      total ((List.range 8).map fun j => shadowCode s v (64 * part + 8 * k + j) * 2 ^ (2 * j)))
  else noObject s

/-- BLOCK 0x3: conflict counters (R125). -/
def conflictObject (s : State) (v : View) (part i : Nat) : Snap :=
  let m := i / 16
  foundIf s (part == 0 && decide (2 ≤ m ∧ m ≤ 7) && i % 16 == viewPart s v) (two (tget 0 s.bank.conflictLat i))

/-- BLOCK 0x4: queues and partitions (R215, R236, Table 10-9). -/
def queueObject (s : State) (v : View) (part i : Nat) : Snap :=
  let p := viewPart s v
  let q := queueOf s i
  let c := q.lat
  let late := fun k => tget 0 s.qe.lateLat (8 * p + k)
  match part with
  | 0 => foundIf s (ownsQid s p i)
      (two (sat 32 c.admitted) ++ two (sat 32 c.delivered) ++ [sat 16 c.refused, sat 16 c.late, sat 16 c.drained, sat 16 c.lateCells])
  | 1 => foundIf s (ownsQid s p i)
      (wordsIn 6 q.cfg.toNat ++ [q.epoch % 256 + (match q.old with
        | some o => o.epoch % 256 * 256
        | none => 0), sat 16 (queueHeld s i)])
  | 2 => foundIf s (i == p)
      [late 1, late 2, late 3, late 4, late 5, late 6, late 7, sat 16 (tget 0 s.qe.heldLat p)]
  | _ => noObject s

/-- BLOCK 0x5: Almanac entries, SYSTIME and the leap counts (R189, R206). -/
def timeObject (s : State) (v : View) (part i : Nat) : Snap :=
  let p := viewPart s v
  let a := (almOf s p).page
  match part with
  | 0 => foundIf s (decide (i < (arange s p).2)) (wordsIn 8 (rawEntry s p (1 - a) i).toNat)
  | 1 => foundIf s (decide (i < (arange s p).2)) (wordsIn 8 (rawEntry s p a i).toNat)
  | 2 =>
    if i = 0 then
      found s (wordsIn 4 (sysNow s) ++ two (frameNo s) ++ [s.clk.systime / 1000 % flen s, s.clk.k])
    else foundIf s (i == 1) [sat 16 s.clk.longLat, sat 16 s.clk.shortLat]
  | _ => noObject s

/-- BLOCK 0x6: segment ports and rosters (R269, R277, R279, R282). -/
def segObject (s : State) (v : View) (part i : Nat) : Snap :=
  let p := viewPart s v
  let x := segOf s i
  let own := decide (i < 192) && segPart s i == p
  match part with
  | 0 => foundIf s own ((List.range 8).map fun j => tget 0 x.lat j)
  | 1 => foundIf s own ((List.range 8).map fun j => tget 0 x.lat (8 + j))
  | 2 => foundIf s own (two (cycleBound s i) ++ wordsIn 3 x.stranger.mac.toNat
      ++ [x.stranger.node % 64 + place x.stranger.csma 15] ++ two x.stranger.sys)
  | 3 => foundIf s own ((List.range 4).map fun j =>
      total ((List.range 16).map fun b => place (x.absent.contains (16 * j + b)) b))
  | 4 => foundIf s (decide (i < 12288) && segPart s (i / 64) == p) (wordsIn 8 (tget 0 s.roster i).toNat)
  | _ => noObject s

/-- BLOCK 0x7: Detuong links, in every view (R299). -/
def linkObject (s : State) (part k : Nat) : Snap :=
  let l := linkOf s k
  match part with
  | 0 => foundIf s (decide (k < 8)) ((List.range 8).map fun j => tget 0 l.lat j)
  | 1 => foundIf s (decide (k < 8))
      (two l.pInc.toNat ++ two (wrap 32 l.delay) ++ [wrap 16 l.eps, l.pHops % 256, l.pGmid % 4096, ownHops s])
  | _ => noObject s

/-- BLOCK 0x8: error log, counts, retired pages (R317, R318, R320). -/
def memObject (s : State) (v : View) (part i : Nat) : Snap :=
  let p := viewPart s v
  match part with
  | 0 => foundIf s (fullView s v && decide (i < 4)) (match tget [] s.dram.log i with
      | r :: _ => wordsIn 8 r.toNat
      | [] => [])
  | 1 => foundIf s (i == p) ((List.range 8).map fun w => tget 0 s.dram.errLat (8 * p + w))
  | 2 => foundIf s (fullView s v && decide (i < 1024))
      (if i < s.dram.retiredPages.length then two (nthD 0 s.dram.retiredPages i) else [0xFFFF, 0xFFFF])
  | _ => noObject s

/-- Block b of the array lies in a view's reach: any in PF0's view, else those of its quota (R417). -/
def seesBlock (s : State) (v : View) (b : Nat) : Bool :=
  let (base, n) := quotaOf s (viewPart s v)
  decide (b < 5120) && (fullView s v || (decide (0xB00 + base ≤ b) && decide (b < 0xB00 + base + n)))

/-- BLOCK 0x9: sector status words and bad blocks (R417). -/
def flashObject (s : State) (v : View) (part i : Nat) : Snap :=
  match part with
  | 0 => foundIf s (seesBlock s v (i / 16)) [(sectorStatus s i).toNat]
  | 1 => foundIf s (seesBlock s v i) [if s.flash.factoryBad.contains i then 1 else if s.flash.runtimeBad.contains i then 2 else 0]
  | _ => noObject s

/-- BLOCK 0xA: timed input records, whose read clears TLATE and OVF (R350), and pattern engines (R354). -/
def pinObject (s : State) (v : View) (part i : Nat) : Snap :=
  let p := viewPart s v
  let x := pinOf s i
  let own := decide (i < 32) && unitPart s (32 + i) == p
  let engine := fun a => (upto a 8).map fun w => if s.fab.pers = 0 ∧ w ≤ 20 then engineWord s i w else 0
  match part with
  | 0 =>
    if i < 256 ∧ pinPart s i = p then
      let (t, level, valid) := match x.inFifo with
        | r :: _ => (r.1, r.2, true)
        | [] => (0, false, false)
      ⟨stOk, snapBits (wordsIn 4 t ++ [place valid 15 + place x.ovf 14 + level.toNat,
        x.outFifo.length % 8 * 8192 + place x.tlate 0]), setPin s i { x with tlate := false, ovf := false }⟩
    else noObject s
  | 1 => foundIf s own (engine 0)
  | 2 => foundIf s own (engine 8)
  | 3 => foundIf s own (engine 16)
  | _ => noObject s

/-- BLOCK 0xB: pending bits of the view's own sources (R357). -/
def eventObject (s : State) (v : View) (part i : Nat) : Snap :=
  let bits := fun n => s.ev.pending.contains n && evtOwner s n == viewPart s v
  foundIf s (part == 0 && decide (i < 16)) ((List.range 8).map fun j =>
    total ((List.range 16).map fun b => place (bits (128 * i + 16 * j + b)) b))

/-! ### BLOCK 0xE: journal, capture, challenge, readback -/

/-- The outstanding challenge (R386): serial number; nonce, the low half at INDEX 0 and the high half at INDEX 1; SCOPE,
LC_STATE, seconds left and VALID. -/
def chalObject (s : State) (part i : Nat) : Snap :=
  match part, s.lc.chal with
  | 4, _ => foundIf s (i == 0) (wordsIn 8 Config.serial.toNat)
  | 5, some c => foundIf s (decide (i < 2)) (wordsIn 8 (c.nonce.toNat / 2 ^ (128 * i)))
  | 5, none => foundIf s (decide (i < 2)) []
  | _, some c => foundIf s (i == 0) [c.scope, c.lcState.toNat, (c.expires - s.clk.f1) / 600000000, 1]
  | _, none => foundIf s (i == 0) []

/-- The words of four 32-bit values. -/
def fourWords (a b c d : BitVec 32) : List Nat := two a.toNat ++ two b.toNat ++ two c.toNat ++ two d.toNat

/-- A hart's state as it reads while frozen (R405). -/
def hartWords (s : State) (n j : Nat) : List Nat :=
  let x := hartOf s n
  let r := fun k => tget 0 x.x k
  if j < 8 then fourWords (r (4 * j)) (r (4 * j + 1)) (r (4 * j + 2)) (r (4 * j + 3))
  else if j = 8 then fourWords x.pc (mstatus x) x.mepc x.mcause
  else if j = 9 then fourWords x.mtval x.mtvec x.mieReg (mip s n)
  else fourWords x.mscratch (x.mcycle.setWidth 32) (x.minstret.setWidth 32) 0

/-- PART 7: a frozen hart (R405). -/
def hartObject (s : State) (v : View) (i : Nat) : Snap :=
  let n := i / 16
  let j := i % 16
  if n ≥ 4 ∨ j > 10 ∨ (hartPart s n ≠ viewPart s v ∧ !session s) then noObject s
  else if !frozen s (hartPart s n) then ⟨stBusy, 0, s⟩
  else found s (hartWords s n j)

/-- Sixteen bits from a test. -/
def bits16 (f : Nat → Bool) : Nat := total ((List.range 16).map fun b => place (f b) b)

/-- Word w of a type-5 frame of a tile column, frame 0 (Table 19-5). -/
def tileWord (s : State) (r t w : Nat) : Nat :=
  let m := macOf s r t
  let acc := fun (a : BitVec 48) k => (a.toNat / 65536 ^ k) % 65536
  if w < 32 then bits16 fun b => tget false s.fab.ff (ffKey r t (w / 2) ((16 * w + b) / 2 % 16) (b % 2))
  else if w = 40 ∨ w = 41 then siteOut s r t / 65536 ^ (w - 40) % 65536
  else if t ≥ 12 then 0
  else if w = 32 then m.k0.toNat
  else if w = 33 then m.k1.toNat
  else if w < 37 then acc m.acc0 (w - 34)
  else if w < 40 then acc m.acc1 (w - 37)
  else 0

/-- Word w of a region's type-5 frame 127 (Table 19-5). -/
def regionWord (s : State) (r w : Nat) : Nat :=
  let stage := fun st l => (bridgeStage s st (8 * r + l)).toNat
  if w < 76 then bits16 fun b => x3Reg s r (16 * w + b)
  else if w < 108 then stage ((w - 76) / 8 + 1) ((w - 76) % 8)
  else if w < 112 then if edgeRegion r then bits16 fun b => tget false s.fab.x5in (r * 64 + 16 * (w - 108) + b) else 0
  else if w < 116 then if edgeRegion r then bits16 fun b => tget false s.fab.x5out (r * 64 + 16 * (w - 112) + b) else 0
  else if w < 148 ∧ s.fab.pers ≠ 0 then stage ((w - 116) / 8 + 5) ((w - 116) % 8)
  else 0

/-- A byte pair of a bank holds an uncorrectable byte. -/
def pairBad (s : State) (b k : Nat) : Bool := (bankBytes s b (2 * k) 2).any (·.2.2 == .ue)

/-- Words of a type-5 frame from word w0, eight of them (R403, R404, Table 19-5). -/
def readback (s : State) (r col f w0 : Nat) : Snap :=
  let bank := 4 * r + (col - 12)
  if f = 0 then found s ((upto w0 8).map (tileWord s r col))
  else if col = 0 ∧ f = 127 then found s ((upto w0 8).map (regionWord s r))
  else if col < 12 ∨ f > 68 then noObject s
  else if f ≤ 64 then
    let bs := bankBytes s bank (512 * (f - 1) + 2 * w0) 16
    ⟨stOk, leVal (bs.map (·.2.1)), setCycle (logBank s 9 bs) bank { cycleOf s bank with bUsed := true }⟩
  else found s ((upto w0 8).map fun w => bits16 fun b => pairBad s bank (4096 * (f - 65) + 16 * w + b))

/-- PART 8 to 15: readback of a frozen region (R403). -/
def frameObject (s : State) (v : View) (part i : Nat) : Snap :=
  let q := i / 2 ^ 20
  let r := fld i 19 11
  let col := fld i 10 7
  let f := i % 128
  let listed := f == 0 || (col == 0 && f == 127) || (decide (12 ≤ col) && decide (f ≤ 68))
  if q > 3 ∨ r ≥ 384 ∨ !listed ∨ (regionPart s r ≠ viewPart s v ∧ !session s) then noObject s
  else if !frozen s (regionPart s r) then ⟨stBusy, 0, s⟩
  else readback s r col f (64 * q + 8 * (part - 8))

/-- Journal counters (chapter 19, PART 0). -/
def journalWords (s : State) : List Nat :=
  let c := s.jrn.lat
  two (sat 32 c.committed) ++ [sat 16 c.folds, sat 16 c.refusals, sat 16 c.missed] ++ two s.jrn.latOldest

/-- BLOCK 0xE. -/
def debugObject (s : State) (v : View) (part i : Nat) : Snap :=
  let p := viewPart s v
  match part with
  | 0 => foundIf s (fullView s v && i == 0) (journalWords s)
  | 1 => foundIf s (i == p || i == 16 || (decide (i < 16) && session s))
      (wordsIn 4 (tget 0 s.cap.fTime i) ++ wordsIn 4 (tget 0 s.cap.rTime i))
  | 2 | 3 => foundIf s (decide (i < 384) && (regionPart s i == p || session s))
      ((upto (8 * (part - 2)) 8).map fun k => (tget 0x0980 s.fab.probe (i * 16 + k)).toNat)
  | 4 | 5 | 6 => chalObject s part i
  | 7 => hartObject s v i
  | _ => frameObject s v part i

/-! ### Snapshots -/

/-- The side port and JTAG without a session reach the challenge only (R385). -/
def mayName (s : State) (v : View) (block part : Nat) : Bool :=
  !((v == .side || v == .jtag) && !session s) || (block == 0xE && decide (4 ≤ part ∧ part ≤ 6))

/-- What a selector finds in a view. -/
def snapshot (s : State) (v : View) (sel : Nat) : Snap :=
  let block := fld sel 31 28
  let part := fld sel 27 24
  let i := sel % 2 ^ 24
  if !mayName s v block part then noObject s
  else match block with
    | 0x0 => ringObject s v part i
    | 0x1 => configObject s v part i
    | 0x3 => conflictObject s v part i
    | 0x4 => queueObject s v part i
    | 0x5 => timeObject s v part i
    | 0x6 => segObject s v part i
    | 0x7 => linkObject s part i
    | 0x8 => memObject s v part i
    | 0x9 => flashObject s v part i
    | 0xA => pinObject s v part i
    | 0xB => eventObject s v part i
    | 0xE => debugObject s v part i
    | _ => noObject s

/-- The mailbox of a view after a snapshot has ended. -/
def mailboxEnds (s : State) (v : View) (status data : Nat) : State :=
  let m := { mbxOf s v with
    valid := status == stOk, busy := false, status := status, ftag := frameTag s, data := BitVec.ofNat 128 data }
  { s with mbx := tset {} s.mbx (viewCode v) m }

/-- MAILBOX_SELECT: a commit of MBX_SEL_LO (R46). -/
def execMailboxSelect (v : View) (lo : Word) (s : State) : Result := .next (writeReg .mbxSelLo 0 v lo.toNat s)

/-- The clock domain of the object that a selector names (R46): timed-input records and pattern engines are clocked with
the pad registers of their partition, which are user state (R82); every other object is copied on CLK_M (DEDUCED, log 97). -/
def objectDomain (s : State) (sel : Nat) : Domain :=
  let i := sel % 2 ^ 24
  if fld sel 31 28 = 0xA then .user (if fld sel 27 24 = 0 then pinPart s i else unitPart s (32 + i)) else .clkM

/-- The object that a view's mailbox is to copy stands in a stopped domain. -/
def mailboxStopped (s : State) (v : View) : Bool :=
  (snapshot s v (mbxOf s v).sel.toNat).status == stOk && domainStopped s (objectDomain s (mbxOf s v).sel.toNat)

/-- The bank that a capture readback reads. -/
def selectedBank (sel : Nat) : Nat := 4 * fld sel 19 11 + (fld sel 10 7 - 12)

/-- A capture readback waits: its bank is being wiped (Table 14-5), or port B has no idle slot in this cycle (R121). -/
def readbackDeferred (s : State) (v : View) : Bool :=
  let m := mbxOf s v
  let b := selectedBank m.sel.toNat
  selectsBank m.sel.toNat b && (snapshot s v m.sel.toNat).status == stOk
    && (!portBIdle s b || (match bankFill s b with
      | some f => decide (f.since < m.since)
      | none => false))

/-- MAILBOX_SNAPSHOT: the snapshot under way is copied, at an edge of a running domain, and completes (R46). -/
def execMailboxSnapshot (v : View) (s : State) : Result :=
  .next (if s.mode.busUp && (mbxOf s v).busy && !mailboxStopped s v && !readbackDeferred s v then
      let r := snapshot s v (mbxOf s v).sel.toNat
      mailboxEnds r.after v r.status r.data
    else s)

/-- MAILBOX_ABORT: the object's domain gave no edge within 4 µs of the selector commit (R46). -/
def execMailboxAbort (v : View) (s : State) : Result :=
  .next (if s.mode.busUp && (mbxOf s v).busy && mailboxStopped s v && passed s (mbxOf s v).since 2400 then
      mailboxEnds s v stAborted 0
    else s)

/-- MBX_D7_READ (R47). -/
def execMbxD7Read (v : View) (s : State) : Result := .next (readReg .mbxD 7 v s)

end Sys2Proof.Machine
end

