-- ==== Sys2Proof/Machine/Ports.lean ====
section
/-! DEFINITION. The side port and the JTAG port (R49 to R52). -/

namespace Sys2Proof.Machine

/-! ### The side port (R49, R50, Table 2-5) -/

/-- A side-port transaction opens, with 0xFF on SIDE_MISO during its header; a write that an earlier transaction left on
the bus has ended by then, and tells its outcome in SYS_REGERR only (R49, R50). -/
def openSide (s : State) : State :=
  let s := settle s
  emit { s with side := { s.side with selected := true } } (.miso [0xFF, 0xFF, 0xFF, 0xFF])

/-- WRITE: an access that ends on the bus at once, or with its record (R50). -/
def sideWrite (s : State) (off : Nat) (val : Word) : State :=
  let s := emit (openSide s) .misoWait
  let (s, st) := busWrite { s with side := { s.side with acc := ⟨true, true, off, val, 0, true⟩ } } .side off 0xF val
  match st with
  | some st => finishWrite s .side st
  | none => s

/-- READ: status byte, then the data, [15:8] first (Table 2-5). -/
def sideRead (s : State) (off : Nat) : State :=
  let (st, w, s) := busRead (emit (openSide s) .misoWait) .side off
  let s := { s with side := { s.side with acc := ⟨true, false, off, w, st, false⟩ } }
  emit s (.miso (BitVec.ofNat 8 st :: beBytes 2 w.toNat))

/-- The bus serves the oldest word of the stream buffer (R50). -/
def serveStream (s : State) : State :=
  match s.side.buf with
  | [] => s
  | w :: ws => (busWrite { s with side := { s.side with buf := ws } } .side s.side.bufOff 0xF w).1

/-- One thing that happens in a STREAM: a word enters the 16-word buffer, or finds it full and is dropped, with BUSY in
LAST; or the bus serves the oldest word (R50). -/
def streamStep (s : State) : StreamStep → State
  | .word w =>
    if s.side.buf.length < 16 then { s with side := { s.side with buf := s.side.buf ++ [w] } } else regErr s .side stBusy
  | .serve => serveStream s

/-- The words of a STREAM's steps. -/
def streamWords (steps : List StreamStep) : List Word :=
  steps.filterMap fun x => match x with
    | .word w => some w
    | .serve => none

/-- STREAM: every word is a write of its own to the header's offset; the bus serves what is left after the last step. -/
def sideStream (s : State) (off : Nat) (steps : List StreamStep) : State :=
  let s := openSide s
  let s := steps.foldl streamStep { s with side := { s.side with buf := [], bufOff := off } }
  let s := s.side.buf.foldl (fun s _ => serveStream s) s
  emit s (.miso (List.replicate (2 * (streamWords steps).length) 0xFF))

/-- SYS_REGERR.LAST of the side-port view. -/
def sideLast (s : State) : Byte := BitVec.ofNat 8 (vw s .side 0x8 0).toNat

/-- WRITE. -/
def execSideWrite (off : Nat) (val : Word) (s : State) : Result :=
  if badHeader off then .fault .sideHeader else .next (if s.mode.busUp then sideWrite s off val else s)

/-- READ. -/
def execSideRead (off : Nat) (s : State) : Result :=
  if badHeader off then .fault .sideHeader else .next (if s.mode.busUp then sideRead s off else s)

/-- STREAM. -/
def execSideStream (off : Nat) (steps : List StreamStep) (s : State) : Result :=
  if badHeader off then .fault .sideHeader else .next (if s.mode.busUp then sideStream s off steps else s)

/-- STATUS. -/
def execSideStatus (s : State) : Result :=
  .next (if s.mode.busUp then emit (openSide s) (.miso [sideLast s]) else s)

/-- SIDE_UNKNOWN_OP: an OP outside Table 2-5. -/
def execSideUnknownOp (op : Byte) (s : State) : Result :=
  .next (if s.mode.busUp && !([0x01, 0x02, 0x04, 0x05] : List Byte).contains op then emit (openSide s) (.miso [0xFF]) else s)

/-- SIDE_CS_RISE: the transaction ends; an access already started still completes (R50). -/
def execSideCsRise (s : State) : Result := .next { s with side := { s.side with selected := false } }

/-! ### JTAG (R51, R52, Table 2-6) -/

/-- An instruction is shifted in: the instruction register's stage captures 0b0000_0001, which leaves on TDO (R51). -/
def loadIr (s : State) (ir : Nat) : State := emit { s with tap := { s.tap with ir := ir, irCapture := 1 } } (.tdo 1)

/-- An instruction selects its data register, which holds a value. -/
def tapSelect (s : State) (ir : Nat) (dr : BitVec 48) : State :=
  let s := loadIr s ir
  { s with tap := { s.tap with dr := dr } }

/-- A scan of a data register under an instruction, which is shifted in first where another one stands. -/
def tapScan (s : State) (ir : Nat) (dr : BitVec 48) : State :=
  if s.tap.ir = ir then { s with tap := { s.tap with dr := dr } } else tapSelect s ir dr

/-- The IDCODE register. -/
def idcodeWord : BitVec 48 :=
  BitVec.ofNat 48 (Config.siliconRev.toNat * 2 ^ 28 + 0x9C19 * 2 ^ 12 + Config.jep106.toNat * 2 + 1)

/-- Values and enables shifted into the boundary-scan cells of GPIO balls. -/
def loadCells (s : State) (cells : List (Nat × Bool × Bool)) : State :=
  { s with tap := { s.tap with cells := cells.foldl (fun t c => tset (false, false) t c.1 c.2) s.tap.cells } }

/-- The boundary-scan chain captures the pads, in an order that the manual leaves to the BSDL file, and its cells take
what is shifted in. -/
def scanSelect (s : State) (ir : Nat) (cells : List (Nat × Bool × Bool)) : State :=
  let (n, s) := draw s
  tapSelect (loadCells s cells) ir (Config.scanData n)

/-- TAP_RESET: Test-Logic-Reset selects IDCODE; an access already started goes on (R52). -/
def execTapReset (s : State) : Result := .next { s with tap := { s.tap with ir := 1 } }

/-- EXTEST, in M2, M4 and M10, where the cells drive the pads (`padDrive`); BYPASS in every other mode. -/
def execExtest (s : State) (cells : List (Nat × Bool × Bool) := []) : Result :=
  .next (if extestMode s then scanSelect s 0 cells else if s.mode.busUp then tapSelect s 0 0 else s)

/-- IDCODE. -/
def execIdcode (s : State) : Result := .next (if s.mode.busUp then tapSelect s 1 idcodeWord else s)

/-- SAMPLE/PRELOAD. -/
def execSamplePreload (s : State) (cells : List (Nat × Bool × Bool) := []) : Result :=
  .next (if s.mode.busUp then scanSelect s 2 cells else s)

/-- BYPASS: 0xFF, and every code outside Table 2-6. -/
def execBypass (code : Byte) (s : State) : Result :=
  .next (if s.mode.busUp && !([0x00, 0x01, 0x02, 0x10] : List Byte).contains code then tapSelect s code.toNat 0 else s)

/-- The access that an Update-DR of REGACC starts (R52). Bits that the layout has zero ([45:44], and OFFSET [25:24])
stop nothing where they are not zero (DESIGN CHOICE, log 96). -/
def startRegacc (s : State) (dr : Nat) : State :=
  let off := fld dr 43 24
  let val : Word := BitVec.ofNat 16 (fld dr 23 8)
  if bit dr 47 then
    let (s, st) := busWrite { s with tap := { s.tap with acc := ⟨true, true, off, val, 0, true⟩ } } .jtag off 0xF val
    match st with
    | some st => finishWrite s .jtag st
    | none => s
  else
    let (st, w, s) := busRead s .jtag off
    { s with tap := { s.tap with acc := ⟨true, false, off, w, st, false⟩ } }

/-- REGACC: Update-DR; with GO = 0, or while an access is in progress, nothing starts. -/
def execRegacc (dr : BitVec 48) (s : State) : Result :=
  .next (if s.mode.busUp then
      let t := tapScan s 0x10 dr
      if dr.getLsbD 46 && !s.tap.acc.inProgress then startRegacc t dr.toNat else t
    else s)

/-- What Capture-DR of REGACC loads: the last access started, its data, its status or 0xFF while in progress. -/
def regaccWord (a : PortAccess) : BitVec 48 :=
  BitVec.ofNat 48 (place a.write 47 + place a.started 46 + a.off % 0x100000 * 2 ^ 24 + a.data.toNat * 2 ^ 8
    + (if a.inProgress then 0xFF else a.status % 256))

/-- REGACC_CAPTURE. -/
def execRegaccCapture (s : State) : Result :=
  .next (if s.mode.busUp then tapScan s 0x10 (regaccWord s.tap.acc) else s)

end Sys2Proof.Machine
end

