-- ==== Sys2Proof/Machine/Requests.lean ====
section
/-! DEFINITION. The commands of commit groups, page flips, page copies and migrations: a register write of a view, or the
next fetched descriptor of a ring pair (R169 to R172, R208 to R210, R235, R247). -/

namespace Sys2Proof.Machine

/-- A command register's write whose CMD, [15:14], is the command's. -/
def cmdWrite (reg : Reg) (cmd : Nat) (v : View) (val : Word) (s : State) : State :=
  if fld val.toNat 15 14 = cmd then writeReg reg 0 v val.toNat s else s

/-- A well-formed descriptor of an opcode whose CMD is the command's. -/
def descCmdIs (op cmd : Nat) (d : BitVec 256) : Bool := descIs op d && fld (dBytes d 4 1) 1 0 == cmd

/-- A commit-group command: CFG_SWPCMD, or a SWAP descriptor. -/
def groupCommand (cmd : Nat) (r : Req) (s : State) : State :=
  match r with
  | .reg v val => cmdWrite .cfgSwpcmd cmd v val s
  | .desc g => handOverIf s g (descCmdIs 4 cmd) (descSwap g)

/-- An Almanac page command: TIM_PGCMD, or a PGFLIP descriptor. -/
def pageCommand (cmd : Nat) (r : Req) (s : State) : State :=
  match r with
  | .reg v val => cmdWrite .timPgcmd cmd v val s
  | .desc g => handOverIf s g (descCmdIs 6 cmd) (descFlip g)

/-- SWAP (R170). -/
def execSwap (r : Req) (s : State) : Result := .next (groupCommand 1 r s)

/-- SWAP_CANCEL (R172). -/
def execSwapCancel (r : Req) (s : State) : Result := .next (groupCommand 2 r s)

/-- CLEAR (R172). -/
def execClear (r : Req) (s : State) : Result := .next (groupCommand 3 r s)

/-- FLIP (R209). -/
def execFlip (r : Req) (s : State) : Result := .next (pageCommand 1 r s)

/-- FLIP_CANCEL (R210). -/
def execFlipCancel (r : Req) (s : State) : Result := .next (pageCommand 2 r s)

/-- COPY_PAGE (R208). -/
def execCopyPage (r : Req) (s : State) : Result := .next (pageCommand 3 r s)

/-- MIGRATE: QE_MIGRATE, or a MIGRATE descriptor (R235). -/
def execMigrate (r : Req) (s : State) : Result :=
  .next (match r with
    | .reg v val => writeReg .qeMigrateLo 0 v val.toNat s
    | .desc g => handOverIf s g (descIs 7) (descMigrate g))

end Sys2Proof.Machine
end

