-- ==== Sys2Proof/Machine/Dispatch.lean ====
section
/-! DEFINITION. One arm per command: a direct call of its meaning. -/

namespace Sys2Proof.Machine

def exec (i : Instr) (s : State) : Host.Outcome State Fault Refusal :=
  match i with
  | .powerOnReset cause vddqHeld => Sys2Proof.Machine.execPowerOnReset cause vddqHeld s
  | .supplyLoss => Sys2Proof.Machine.execSupplyLoss s
  | .rstN => Sys2Proof.Machine.execRstN s
  | .resetRelease vccio senseBad => Sys2Proof.Machine.execResetRelease vccio senseBad s
  | .fallbackLoad => Sys2Proof.Machine.execFallbackLoad s
  | .refFault absent => Sys2Proof.Machine.execRefFault s absent
  | .refRelock => Sys2Proof.Machine.execRefRelock s
  | .registerWrite v off be val => Sys2Proof.Machine.execRegisterWrite v off be val s
  | .hiWrite v off val => Sys2Proof.Machine.execHiWrite v off val s
  | .framedWrite v off val => Sys2Proof.Machine.execFramedWrite v off val s
  | .cancel v => Sys2Proof.Machine.execCancel v s
  | .registerAbort v off write val => Sys2Proof.Machine.execRegisterAbort v off write s val
  | .prtCtlLock v => Sys2Proof.Machine.execPrtCtlLock v s
  | .prtRgnWrite v k val => Sys2Proof.Machine.execPrtRgnWrite v k val s
  | .brgGateWrite v k val => Sys2Proof.Machine.execBrgGateWrite v k val s
  | .mailboxSelect v lo => Sys2Proof.Machine.execMailboxSelect v lo s
  | .mailboxSnapshot v => Sys2Proof.Machine.execMailboxSnapshot v s
  | .mailboxAbort v => Sys2Proof.Machine.execMailboxAbort v s
  | .mbxD7Read v => Sys2Proof.Machine.execMbxD7Read v s
  | .sideWrite off val => Sys2Proof.Machine.execSideWrite off val s
  | .sideRead off => Sys2Proof.Machine.execSideRead off s
  | .sideStream off steps => Sys2Proof.Machine.execSideStream off steps s
  | .sideStatus => Sys2Proof.Machine.execSideStatus s
  | .sideUnknownOp op => Sys2Proof.Machine.execSideUnknownOp op s
  | .sideCsRise => Sys2Proof.Machine.execSideCsRise s
  | .tapReset => Sys2Proof.Machine.execTapReset s
  | .extest cells => Sys2Proof.Machine.execExtest s cells
  | .idcode => Sys2Proof.Machine.execIdcode s
  | .samplePreload cells => Sys2Proof.Machine.execSamplePreload s cells
  | .bypass code => Sys2Proof.Machine.execBypass code s
  | .regacc dr => Sys2Proof.Machine.execRegacc dr s
  | .regaccCapture => Sys2Proof.Machine.execRegaccCapture s
  | .access bank pins => Sys2Proof.Machine.execAccess bank pins s
  | .portARead bank wide addr => Sys2Proof.Machine.execPortARead bank wide addr s
  | .portAWrite bank wide addr data => Sys2Proof.Machine.execPortAWrite bank wide addr data s
  | .accAdd region tile acc pins => Sys2Proof.Machine.execAccAdd region tile acc pins s
  | .accLoad region tile acc pins => Sys2Proof.Machine.execAccLoad region tile acc pins s
  | .accClear region tile acc pins => Sys2Proof.Machine.execAccClear region tile acc pins s
  | .ldk region tile k pins => Sys2Proof.Machine.execLdk region tile k pins s
  | .direct region tile pins => Sys2Proof.Machine.execDirect region tile pins s
  | .portBRequest master part addr acc => Sys2Proof.Machine.execPortBRequest master part addr acc s
  | .portBService bank => Sys2Proof.Machine.execPortBService bank s
  | .bankHandover v bank val => Sys2Proof.Machine.execBankHandover v bank val s
  | .bankFillDone bank => Sys2Proof.Machine.execBankFillDone bank s
  | .nop => Sys2Proof.Machine.execNop s
  | .fadr => Sys2Proof.Machine.execFadr s
  | .regmask => Sys2Proof.Machine.execRegmask s
  | .frame => Sys2Proof.Machine.execFrame s
  | .endPkt => Sys2Proof.Machine.execEndPkt s
  | .loadHeader => Sys2Proof.Machine.execLoadHeader s
  | .loadChecksDone => Sys2Proof.Machine.execLoadChecksDone s
  | .startSide v => Sys2Proof.Machine.execStartSide v s
  | .cfgFdatWrite v val => Sys2Proof.Machine.execCfgFdatWrite v val s
  | .abort v => Sys2Proof.Machine.execAbort v s
  | .loadTimeout => Sys2Proof.Machine.execLoadTimeout s
  | .loadStart => Sys2Proof.Machine.execLoadStart s
  | .swap r => Sys2Proof.Machine.execSwap r s
  | .swapCancel r => Sys2Proof.Machine.execSwapCancel r s
  | .clear r => Sys2Proof.Machine.execClear r s
  | .swapEdge part cg => Sys2Proof.Machine.execSwapEdge part cg s
  | .drainDeadline qid => Sys2Proof.Machine.execDrainDeadline qid s
  | .configScrubRead upset shadowUpset => Sys2Proof.Machine.execConfigScrubRead s upset shadowUpset
  | .slotEdge => Sys2Proof.Machine.execSlotEdge s
  | .oosClear => Sys2Proof.Machine.execOosClear s
  | .frameBoundary => Sys2Proof.Machine.execFrameBoundary s
  | .systimeLoad v lo => Sys2Proof.Machine.execSystimeLoad v lo s
  | .timCtlWrite v val => Sys2Proof.Machine.execTimCtlWrite v val s
  | .timFlenWrite v val => Sys2Proof.Machine.execTimFlenWrite v val s
  | .timHlenWrite v val => Sys2Proof.Machine.execTimHlenWrite v val s
  | .timArangeWrite v p val => Sys2Proof.Machine.execTimArangeWrite v p val s
  | .almanacEntryWrite v lo => Sys2Proof.Machine.execAlmanacEntryWrite v lo s
  | .afile ring => Sys2Proof.Machine.execAfile ring s
  | .afileDone part => Sys2Proof.Machine.execAfileDone part s
  | .copyPage r => Sys2Proof.Machine.execCopyPage r s
  | .pageCopyDone part => Sys2Proof.Machine.execPageCopyDone part s
  | .flip r => Sys2Proof.Machine.execFlip r s
  | .flipCheckDone part => Sys2Proof.Machine.execFlipCheckDone part s
  | .flipCancel r => Sys2Proof.Machine.execFlipCancel r s
  | .dramRefresh mc => Sys2Proof.Machine.execDramRefresh mc s
  | .queueConfig v lo => Sys2Proof.Machine.execQueueConfig v lo s
  | .submission sub => Sys2Proof.Machine.execSubmission sub s
  | .admission => Sys2Proof.Machine.execAdmission s
  | .spillReturn part sense => Sys2Proof.Machine.execSpillReturn part s sense
  | .cellDelivery egress => Sys2Proof.Machine.execCellDelivery egress s
  | .final tid => Sys2Proof.Machine.execFinal tid s
  | .late tid leg => Sys2Proof.Machine.execLate tid leg s
  | .dbcnt fsp n => Sys2Proof.Machine.execDbcnt fsp n s
  | .fspEntryRead fsp => Sys2Proof.Machine.execFspEntryRead fsp s
  | .fspCompletionWord fsp => Sys2Proof.Machine.execFspCompletionWord fsp s
  | .fspRingEnable v k val => Sys2Proof.Machine.execFspRingEnable v k val s
  | .fspOwnerWrite v k val => Sys2Proof.Machine.execFspOwnerWrite v k val s
  | .migrate r => Sys2Proof.Machine.execMigrate r s
  | .sqDoorbell page val off size => Sys2Proof.Machine.execSqDoorbell page val s off size
  | .cqDoorbell page val off size => Sys2Proof.Machine.execCqDoorbell page val s off size
  | .ringConfig v val => Sys2Proof.Machine.execRingConfig v val s
  | .descriptorFetch ring res => Sys2Proof.Machine.execDescriptorFetch ring res s
  | .xfer ring => Sys2Proof.Machine.execXfer ring s
  | .rxbuf ring => Sys2Proof.Machine.execRxbuf ring s
  | .load ring mask => Sys2Proof.Machine.execLoad ring s mask
  | .jdrain ring => Sys2Proof.Machine.execJdrain ring s
  | .copy ring => Sys2Proof.Machine.execCopy ring s
  | .copyStart part => Sys2Proof.Machine.execCopyStart part s
  | .unit part => Sys2Proof.Machine.execUnit part s
  | .descInvalid ring => Sys2Proof.Machine.execDescInvalid ring s
  | .completionWrite => Sys2Proof.Machine.execCompletionWrite s
  | .msixCoalesce ring => Sys2Proof.Machine.execMsixCoalesce ring s
  | .hcapChange rate width => Sys2Proof.Machine.execHcapChange rate width s
  | .flr fn => Sys2Proof.Machine.execFlr fn s
  | .linkDown why => Sys2Proof.Machine.execLinkDown why s
  | .segCtlWrite v k val => Sys2Proof.Machine.execSegCtlWrite v k val s
  | .beacon port => Sys2Proof.Machine.execBeacon port s
  | .beaconReceived port => Sys2Proof.Machine.execBeaconReceived port s
  | .beaconerr port => Sys2Proof.Machine.execBeaconerr port s
  | .toTimer port => Sys2Proof.Machine.execToTimer port s
  | .transmitOpportunity port res => Sys2Proof.Machine.execTransmitOpportunity port res s
  | .segFrameReceived port ev => Sys2Proof.Machine.execSegFrameReceived port ev s
  | .rosterCommit v val => Sys2Proof.Machine.execRosterCommit v val s
  | .nodeAbsent port entry => Sys2Proof.Machine.execNodeAbsent port entry s
  | .slotBlockReceived k blk ctrl r => Sys2Proof.Machine.execSlotBlockReceived k blk ctrl r s
  | .linkCellReceived k map cell => Sys2Proof.Machine.execLinkCellReceived k map cell s
  | .linkEnable v k val => Sys2Proof.Machine.execLinkEnable v k val s
  | .linkDisable v k val => Sys2Proof.Machine.execLinkDisable v k val s
  | .laneLock k => Sys2Proof.Machine.execLaneLock k s
  | .hello k inc => Sys2Proof.Machine.execHello k inc s
  | .ack k pinc => Sys2Proof.Machine.execAck k pinc s
  | .ready k inc => Sys2Proof.Machine.execReady k inc s
  | .handshakeTimeout k => Sys2Proof.Machine.execHandshakeTimeout k s
  | .absent k => Sys2Proof.Machine.execAbsent k s
  | .retrain k => Sys2Proof.Machine.execRetrain k s
  | .lockReturn k => Sys2Proof.Machine.execLockReturn k s
  | .retryTimer k => Sys2Proof.Machine.execRetryTimer k s
  | .dramTraining mc gib => Sys2Proof.Machine.execDramTraining mc gib s
  | .dramRequest master part addr acc => Sys2Proof.Machine.execDramRequest master part addr acc s
  | .dramCompletion mc part sense => Sys2Proof.Machine.execDramCompletion mc part sense s
  | .windowFill v w val => Sys2Proof.Machine.execWindowFill v w val s
  | .fillDone w => Sys2Proof.Machine.execFillDone w s
  | .scrubVisit k sense onTime => Sys2Proof.Machine.execScrubVisit k sense onTime s
  | .memLogpop v val => Sys2Proof.Machine.execMemLogpop v val s
  | .bnkRetire v val => Sys2Proof.Machine.execBnkRetire v val s
  | .memRetire v lo => Sys2Proof.Machine.execMemRetire v lo s
  | .deferredStart => Sys2Proof.Machine.execDeferredStart s
  | .chatyReset => Sys2Proof.Machine.execChatyReset s
  | .info => Sys2Proof.Machine.execInfo s
  | .sense temp power => Sys2Proof.Machine.execSense temp power s
  | .fwUpdate => Sys2Proof.Machine.execFwUpdate s
  | .mgmtTimeout => Sys2Proof.Machine.execMgmtTimeout s
  | .hartLoad h rd addr bytes signed => Sys2Proof.Machine.execHartLoad h rd addr bytes signed s
  | .hartStore h addr bytes data => Sys2Proof.Machine.execHartStore h addr bytes data s
  | .storeDrain h => Sys2Proof.Machine.execStoreDrain h s
  | .fence h pred tso => Sys2Proof.Machine.execFence h pred tso s
  | .fenceI h => Sys2Proof.Machine.execFenceI h s
  | .lr h rd addr => Sys2Proof.Machine.execLr h rd addr s
  | .sc h rd addr data rl => Sys2Proof.Machine.execSc h rd addr data rl s
  | .amo h rd op addr data rl => Sys2Proof.Machine.execAmo h rd op addr data rl s
  | .wfi h => Sys2Proof.Machine.execWfi h s
  | .hartTrap h interrupt code tval => Sys2Proof.Machine.execHartTrap h interrupt code tval s
  | .hartRun v h val => Sys2Proof.Machine.execHartRun v h val s
  | .rst v h val => Sys2Proof.Machine.execRst v h val s
  | .evtClaim v h => Sys2Proof.Machine.execEvtClaim v h s
  | .pinConfigWrite v pin aux val => Sys2Proof.Machine.execPinConfigWrite v pin aux val s
  | .switchEdge pin => Sys2Proof.Machine.execSwitchEdge pin s
  | .pinSet v g val => Sys2Proof.Machine.execPinSet v g val s
  | .pinClr v g val => Sys2Proof.Machine.execPinClr v g val s
  | .pinTgl v g val => Sys2Proof.Machine.execPinTgl v g val s
  | .edgeCommit v val => Sys2Proof.Machine.execEdgeCommit v val s
  | .timedEdgeApply pin => Sys2Proof.Machine.execTimedEdgeApply pin s
  | .pinLevelChange pin level => Sys2Proof.Machine.execPinLevelChange pin level s
  | .pinTpop v val => Sys2Proof.Machine.execPinTpop v val s
  | .patternCommit v val => Sys2Proof.Machine.execPatternCommit v val s
  | .serialControlWrite v u val => Sys2Proof.Machine.execSerialControlWrite v u val s
  | .serialByteWrite v u val => Sys2Proof.Machine.execSerialByteWrite v u val s
  | .last v u byte => Sys2Proof.Machine.execLast v u byte s
  | .start v u byte => Sys2Proof.Machine.execStart v u byte s
  | .stop v u byte => Sys2Proof.Machine.execStop v u byte s
  | .readByte v u nack => Sys2Proof.Machine.execReadByte v u nack s
  | .serialDataRead v u => Sys2Proof.Machine.execSerialDataRead v u s
  | .serialByteReceived u byte err => Sys2Proof.Machine.execSerialByteReceived u byte err s
  | .serialByteSent u err => Sys2Proof.Machine.execSerialByteSent u err s
  | .eventRaise src => Sys2Proof.Machine.execEventRaise src s
  | .eventDelivery src => Sys2Proof.Machine.execEventDelivery src s
  | .evtClr v val => Sys2Proof.Machine.execEvtClr v val s
  | .evtRteWrite v src val => Sys2Proof.Machine.execEvtRteWrite v src val s
  | .doze v => Sys2Proof.Machine.execDoze v s
  | .sleep v => Sys2Proof.Machine.execSleep v s
  | .deep v => Sys2Proof.Machine.execDeep v s
  | .cancelOrWake v => Sys2Proof.Machine.execCancelOrWake v s
  | .entryBegin => Sys2Proof.Machine.execEntryBegin s
  | .avsVoltageChange => Sys2Proof.Machine.execAvsVoltageChange s
  | .avsRetry => Sys2Proof.Machine.execAvsRetry s
  | .avsSetpoint mv => Sys2Proof.Machine.execAvsSetpoint mv s
  | .smbusWake addr => Sys2Proof.Machine.execSmbusWake addr s
  | .wakePin pin => Sys2Proof.Machine.execWakePin pin s
  | .alarm => Sys2Proof.Machine.execAlarm s
  | .wake => Sys2Proof.Machine.execWake s
  | .wakefail => Sys2Proof.Machine.execWakefail s
  | .thermWarn => Sys2Proof.Machine.execThermWarn s
  | .therm => Sys2Proof.Machine.execTherm s
  | .thermRelease => Sys2Proof.Machine.execThermRelease s
  | .pwrPadRelease v val => Sys2Proof.Machine.execPwrPadRelease v val s
  | .pwrReset v val => Sys2Proof.Machine.execPwrReset v val s
  | .pwrPrst v val => Sys2Proof.Machine.execPwrPrst v val s
  | .toVtest margin => Sys2Proof.Machine.execToVtest margin s
  | .toShipped margin => Sys2Proof.Machine.execToShipped margin s
  | .sealStep margin => Sys2Proof.Machine.execSealStep margin s
  | .unsealStep margin => Sys2Proof.Machine.execUnseal margin s
  | .returnStep margin => Sys2Proof.Machine.execReturnStep margin s
  | .scrap margin => Sys2Proof.Machine.execScrap margin s
  | .burnDone => Sys2Proof.Machine.execBurnDone s
  | .wipeDone => Sys2Proof.Machine.execWipeDone s
  | .keyWrite => Sys2Proof.Machine.execKeyWrite s
  | .keyClear => Sys2Proof.Machine.execKeyClear s
  | .dbgCcmd v val => Sys2Proof.Machine.execDbgCcmd v val s
  | .dbgChal => Sys2Proof.Machine.execDbgChal s
  | .challengeLapse => Sys2Proof.Machine.execChallengeLapse s
  | .dbgRdat v val => Sys2Proof.Machine.execDbgRdat v val s
  | .go v => Sys2Proof.Machine.execGo v s
  | .clr v => Sys2Proof.Machine.execClr v s
  | .dbgResp => Sys2Proof.Machine.execDbgResp s
  | .responseIntake => Sys2Proof.Machine.execResponseIntake s
  | .responseCheck margin => Sys2Proof.Machine.execResponseCheck margin s
  | .openSession v => Sys2Proof.Machine.execOpenSession v s
  | .journalCommit => Sys2Proof.Machine.execJournalCommit s
  | .jdrainClose => Sys2Proof.Machine.execJdrainClose s
  | .journalSpill ok => Sys2Proof.Machine.execJournalSpill ok s
  | .freeze v val => Sys2Proof.Machine.execFreeze v val s
  | .freezeEdge scope => Sys2Proof.Machine.execFreezeEdge scope s
  | .release v val => Sys2Proof.Machine.execRelease v val s
  | .resumeEdge scope => Sys2Proof.Machine.execResumeEdge scope s
  | .dbgPrgn v val => Sys2Proof.Machine.execDbgPrgn v val s
  | .dbgPlineWrite v k val => Sys2Proof.Machine.execDbgPlineWrite v k val s
  | .flRead => Sys2Proof.Machine.execFlRead s
  | .flProg => Sys2Proof.Machine.execFlProg s
  | .sectorErase => Sys2Proof.Machine.execSectorErase s
  | .blockErase => Sys2Proof.Machine.execBlockErase s
  | .markBad => Sys2Proof.Machine.execMarkBad s
  | .eraseDone => Sys2Proof.Machine.execEraseDone s
  | .erasefail => Sys2Proof.Machine.execErasefail s
  | .eraseSuspend => Sys2Proof.Machine.execEraseSuspend s
  | .eraseResume => Sys2Proof.Machine.execEraseResume s
  | .quotaCommit v p lo => Sys2Proof.Machine.execQuotaCommit v p lo s
  | .userClockEdge => Sys2Proof.Machine.execUserClockEdge s
  | .csmaAttempt port res => Sys2Proof.Machine.execCsmaAttempt port res s
  | .hostReadCompletion id res => Sys2Proof.Machine.execHostReadCompletion id res s
  | .configurationSpaceWrite fn w => Sys2Proof.Machine.execConfigurationSpaceWrite fn w s
  | .mgmtCodeInvalid => Sys2Proof.Machine.execMgmtCodeInvalid s

end Sys2Proof.Machine
end

