-- ==== Sys2Proof/WellFormed.lean ====
section
/-! DEFINITION. Well-formed commands: every operand names something that the manual numbers (views, BAR0 offsets, banks,
regions, tiles, partitions, ring pairs, ports, links, pins, event sources, harts). -/

namespace Sys2Proof

/-- A view that exists: VF1 to VF15, AH0 to AH3 (R45, Table 19-2). -/
def wfView : View → Bool
  | .vf n => decide (1 ≤ n ∧ n ≤ 15)
  | .hart n => decide (n < 4)
  | _ => true

/-- A BAR0 offset of a doubleword (R34, R53). -/
def wfOffset (off : Nat) : Bool := decide (off < 0x100000) && off % 4 == 0

/-- A register write of a view, or a ring pair (R241). -/
def wfReq : Req → Bool
  | .reg v _ => wfView v
  | .desc g => decide (g < 4096)

/-- An access: at least one byte; an AMO of RV32A. -/
def wfAcc : Acc → Bool
  | .read n => decide (1 ≤ n)
  | .write bs => decide (1 ≤ bs.length)
  | .amo op _ => decide (op < 9)

/-- A load or store of RV32I: a byte, a halfword or a word. -/
def wfSize (n : Nat) : Bool := n == 1 || n == 2 || n == 4

/-- A write of PCIe configuration space: 0 to 15 VFs; a vector of the largest MSI-X table; the sizes that PCIe encodes
(R238, R240, R241). -/
def wfCfg : CfgWrite → Bool
  | .numVFs n => decide (n ≤ 15)
  | .msixMask vec _ => decide (vec < 2048)
  | .msixEntry vec _ _ => decide (vec < 2048)
  | .maxPayload n | .maxReadRequest n => ([128, 256, 512, 1024, 2048, 4096] : List Nat).contains n
  | _ => true

/-- Boundary-scan cells of GPIO balls. -/
def wfCells (cells : List (Nat × Bool × Bool)) : Bool := cells.all fun c => decide (c.1 < 256)

/-- The source of a submission (R217, R241, R268). -/
def wfSrc : SubSrc → Bool
  | .ring g _ => decide (g < 4096)
  | .fsp k _ => decide (k < 256)
  | .seg port => decide (port < 192)
  | .link k _ => decide (k < 8)

/-- A submission (Table 10-3). -/
def wfSub (x : Submission) : Bool :=
  wfSrc x.src && decide (x.part < 16) && decide (x.qid < 1048576) && decide (x.len < 65536)

/-- A well-formed command. -/
def Instr.wf : Instr → Bool
  | .powerOnReset _ _ => true
  | .supplyLoss => true
  | .rstN => true
  | .resetRelease _ _ => true
  | .fallbackLoad => true
  | .refFault _ => true
  | .refRelock => true
  | .registerWrite v off _ _ => wfView v && wfOffset off
  | .hiWrite v off _ => wfView v && wfOffset off
  | .framedWrite v off _ => wfView v && wfOffset off
  | .cancel v => wfView v
  | .registerAbort v off _ _ => wfView v && wfOffset off
  | .prtCtlLock v => wfView v
  | .prtRgnWrite v k _ => wfView v && decide (k < 96)
  | .brgGateWrite v k _ => wfView v && decide (k < 64)
  | .mailboxSelect v _ => wfView v
  | .mailboxSnapshot v => wfView v
  | .mailboxAbort v => wfView v
  | .mbxD7Read v => wfView v
  | .sideWrite off _ => decide (off < 16777216)
  | .sideRead off => decide (off < 16777216)
  | .sideStream off _ => decide (off < 16777216)
  | .sideStatus => true
  | .sideUnknownOp _ => true
  | .sideCsRise => true
  | .tapReset => true
  | .extest cells => wfCells cells
  | .idcode => true
  | .samplePreload cells => wfCells cells
  | .bypass _ => true
  | .regacc _ => true
  | .regaccCapture => true
  | .access bank _ => decide (bank < 1536)
  | .portARead bank _ addr => decide (bank < 1536) && decide (addr < 32768)
  | .portAWrite bank _ addr _ => decide (bank < 1536) && decide (addr < 32768)
  | .accAdd region tile acc _ => decide (region < 384) && decide (tile < 12) && decide (acc < 2)
  | .accLoad region tile acc _ => decide (region < 384) && decide (tile < 12) && decide (acc < 2)
  | .accClear region tile acc _ => decide (region < 384) && decide (tile < 12) && decide (acc < 2)
  | .ldk region tile k _ => decide (region < 384) && decide (tile < 12) && decide (k < 2)
  | .direct region tile _ => decide (region < 384) && decide (tile < 12)
  | .portBRequest master part _ acc => decide (master < 8) && decide (part < 16) && wfAcc acc
  | .portBService bank => decide (bank < 1536)
  | .bankHandover v bank _ => wfView v && decide (bank < 1536)
  | .bankFillDone bank => decide (bank < 1536)
  | .nop => true
  | .fadr => true
  | .regmask => true
  | .frame => true
  | .endPkt => true
  | .loadHeader => true
  | .loadChecksDone => true
  | .startSide v => wfView v
  | .cfgFdatWrite v _ => wfView v
  | .abort v => wfView v
  | .loadTimeout => true
  | .loadStart => true
  | .swap r => wfReq r
  | .swapCancel r => wfReq r
  | .clear r => wfReq r
  | .swapEdge part cg => decide (part < 16) && decide (cg < 4)
  | .drainDeadline qid => decide (qid < 1048576)
  | .configScrubRead upset shadowUpset => (upset ++ shadowUpset).all fun b => decide (b < 4096)
  | .slotEdge => true
  | .oosClear => true
  | .frameBoundary => true
  | .systimeLoad v _ => wfView v
  | .timCtlWrite v _ => wfView v
  | .timFlenWrite v _ => wfView v
  | .timHlenWrite v _ => wfView v
  | .timArangeWrite v p _ => wfView v && decide (p < 16)
  | .almanacEntryWrite v _ => wfView v
  | .afile ring => decide (ring < 4096)
  | .afileDone part => decide (part < 16)
  | .copyPage r => wfReq r
  | .pageCopyDone part => decide (part < 16)
  | .flip r => wfReq r
  | .flipCheckDone part => decide (part < 16)
  | .flipCancel r => wfReq r
  | .dramRefresh mc => decide (mc < 2)
  | .queueConfig v _ => wfView v
  | .submission sub => wfSub sub
  | .admission => true
  | .spillReturn part _ => decide (part < 16)
  | .cellDelivery egress => decide (egress < 8192)
  | .final _ => true
  | .late _ leg => decide (leg < 16)
  | .dbcnt fsp n => decide (fsp < 256) && decide (n < 65536)
  | .fspEntryRead fsp => decide (fsp < 256)
  | .fspCompletionWord fsp => decide (fsp < 256)
  | .fspRingEnable v k _ => wfView v && decide (k < 256)
  | .fspOwnerWrite v k _ => wfView v && decide (k < 64)
  | .migrate r => wfReq r
  | .sqDoorbell page _ _ _ => decide (page < 4096)
  | .cqDoorbell page _ _ _ => decide (page < 4096)
  | .ringConfig v _ => wfView v
  | .descriptorFetch ring _ => decide (ring < 4096)
  | .xfer ring => decide (ring < 4096)
  | .rxbuf ring => decide (ring < 4096)
  | .load ring mask => decide (ring < 4096) && mask.all fun r => decide (r < 384)
  | .jdrain ring => decide (ring < 4096)
  | .copy ring => decide (ring < 4096)
  | .copyStart part => decide (part < 16)
  | .unit part => decide (part < 16)
  | .descInvalid ring => decide (ring < 4096)
  | .completionWrite => true
  | .msixCoalesce ring => decide (ring < 4096)
  | .hcapChange rate width => decide (1 ≤ rate) && decide (rate ≤ 5) && ([1, 2, 4, 8] : List Nat).contains width
  | .flr fn => decide (fn < 16)
  | .linkDown _ => true
  | .segCtlWrite v k _ => wfView v && decide (k < 192)
  | .beacon port => decide (port < 192)
  | .beaconReceived port => decide (port < 192)
  | .beaconerr port => decide (port < 192)
  | .toTimer port => decide (port < 192)
  | .transmitOpportunity port _ => decide (port < 192)
  | .segFrameReceived port _ => decide (port < 192)
  | .rosterCommit v _ => wfView v
  | .nodeAbsent port entry => decide (port < 192) && decide (entry < 64)
  | .slotBlockReceived k _ _ _ => decide (k < 8)
  | .linkCellReceived k _ cell => decide (k < 8) && decide (cell.length = 256)
  | .linkEnable v k _ => wfView v && decide (k < 8)
  | .linkDisable v k _ => wfView v && decide (k < 8)
  | .laneLock k => decide (k < 8)
  | .hello k _ => decide (k < 8)
  | .ack k _ => decide (k < 8)
  | .ready k _ => decide (k < 8)
  | .handshakeTimeout k => decide (k < 8)
  | .absent k => decide (k < 8)
  | .retrain k => decide (k < 8)
  | .lockReturn k => decide (k < 8)
  | .retryTimer k => decide (k < 8)
  | .dramTraining mc _ => decide (mc < 2)
  | .dramRequest master part _ acc => decide (master < 8) && decide (part < 16) && wfAcc acc
  | .dramCompletion mc part _ => decide (mc < 2) && decide (part < 16)
  | .windowFill v w _ => wfView v && decide (w < 256)
  | .fillDone w => decide (w < 256)
  | .scrubVisit k _ _ => decide (k < 5)
  | .memLogpop v _ => wfView v
  | .bnkRetire v _ => wfView v
  | .memRetire v _ => wfView v
  | .deferredStart => true
  | .chatyReset => true
  | .info => true
  | .sense _ _ => true
  | .fwUpdate => true
  | .mgmtTimeout => true
  | .hartLoad h rd _ bytes _ => decide (h < 4) && decide (rd < 32) && wfSize bytes
  | .hartStore h _ bytes _ => decide (h < 4) && wfSize bytes
  | .storeDrain h => decide (h < 4)
  | .fence h _ _ => decide (h < 4)
  | .fenceI h => decide (h < 4)
  | .lr h rd _ => decide (h < 4) && decide (rd < 32)
  | .sc h rd _ _ _ => decide (h < 4) && decide (rd < 32)
  | .amo h rd _ _ _ _ => decide (h < 4) && decide (rd < 32)
  | .wfi h => decide (h < 4)
  | .hartTrap h _ _ _ => decide (h < 4)
  | .hartRun v h _ => wfView v && decide (h < 4)
  | .rst v h _ => wfView v && decide (h < 4)
  | .evtClaim v h => wfView v && decide (h < 4)
  | .pinConfigWrite v pin _ _ => wfView v && decide (pin < 256)
  | .switchEdge pin => decide (pin < 256)
  | .pinSet v g _ => wfView v && decide (g < 16)
  | .pinClr v g _ => wfView v && decide (g < 16)
  | .pinTgl v g _ => wfView v && decide (g < 16)
  | .edgeCommit v _ => wfView v
  | .timedEdgeApply pin => decide (pin < 256)
  | .pinLevelChange pin _ => decide (pin < 256)
  | .pinTpop v _ => wfView v
  | .patternCommit v _ => wfView v
  | .serialControlWrite v u _ => wfView v && decide (u < 32)
  | .serialByteWrite v u _ => wfView v && decide (u < 32)
  | .last v u _ => wfView v && decide (u < 32)
  | .start v u _ => wfView v && decide (u < 32)
  | .stop v u _ => wfView v && decide (u < 32)
  | .readByte v u _ => wfView v && decide (u < 32)
  | .serialDataRead v u => wfView v && decide (u < 32)
  | .serialByteReceived u _ _ => decide (u < 32)
  | .serialByteSent u _ => decide (u < 32)
  | .eventRaise src => decide (src < 2048)
  | .eventDelivery src => decide (src < 2048)
  | .evtClr v _ => wfView v
  | .evtRteWrite v src _ => wfView v && decide (src < 2048)
  | .doze v => wfView v
  | .sleep v => wfView v
  | .deep v => wfView v
  | .cancelOrWake v => wfView v
  | .entryBegin => true
  | .avsVoltageChange => true
  | .avsRetry => true
  | .avsSetpoint mv => decide (mv < 65536)
  | .smbusWake _ => true
  | .wakePin pin => decide (pin < 256)
  | .alarm => true
  | .wake => true
  | .wakefail => true
  | .thermWarn => true
  | .therm => true
  | .thermRelease => true
  | .pwrPadRelease v _ => wfView v
  | .pwrReset v _ => wfView v
  | .pwrPrst v _ => wfView v
  | .toVtest _ => true
  | .toShipped _ => true
  | .sealStep _ => true
  | .unsealStep _ => true
  | .returnStep _ => true
  | .scrap _ => true
  | .burnDone => true
  | .wipeDone => true
  | .keyWrite => true
  | .keyClear => true
  | .dbgCcmd v _ => wfView v
  | .dbgChal => true
  | .challengeLapse => true
  | .dbgRdat v _ => wfView v
  | .go v => wfView v
  | .clr v => wfView v
  | .dbgResp => true
  | .responseIntake => true
  | .responseCheck _ => true
  | .openSession v => wfView v
  | .journalCommit => true
  | .jdrainClose => true
  | .journalSpill _ => true
  | .freeze v _ => wfView v
  | .freezeEdge scope => decide (scope ≤ 16)
  | .release v _ => wfView v
  | .resumeEdge scope => decide (scope ≤ 16)
  | .dbgPrgn v _ => wfView v
  | .dbgPlineWrite v k _ => wfView v && decide (k < 64)
  | .flRead => true
  | .flProg => true
  | .sectorErase => true
  | .blockErase => true
  | .markBad => true
  | .eraseDone => true
  | .erasefail => true
  | .eraseSuspend => true
  | .eraseResume => true
  | .quotaCommit v p _ => wfView v && decide (p < 16)
  | .userClockEdge => true
  | .csmaAttempt port _ => decide (port < 192)
  | .hostReadCompletion _ _ => true
  | .configurationSpaceWrite fn w => decide (fn < 16) && wfCfg w
  | .mgmtCodeInvalid => true

/-- The view that a command comes from, where it is a register access of one. -/
def Instr.sender : Instr → Option View
  | .powerOnReset _ _ => none
  | .supplyLoss => none
  | .rstN => none
  | .resetRelease _ _ => none
  | .fallbackLoad => none
  | .refFault _ => none
  | .refRelock => none
  | .registerWrite v _ _ _ => some v
  | .hiWrite v _ _ => some v
  | .framedWrite v _ _ => some v
  | .cancel v => some v
  | .registerAbort v _ _ _ => some v
  | .prtCtlLock v => some v
  | .prtRgnWrite v _ _ => some v
  | .brgGateWrite v _ _ => some v
  | .mailboxSelect v _ => some v
  | .mailboxSnapshot v => some v
  | .mailboxAbort v => some v
  | .mbxD7Read v => some v
  | .sideWrite _ _ => some .side
  | .sideRead _ => some .side
  | .sideStream _ _ => some .side
  | .sideStatus => none
  | .sideUnknownOp _ => none
  | .sideCsRise => none
  | .tapReset => none
  | .extest _ => none
  | .idcode => none
  | .samplePreload _ => none
  | .bypass _ => none
  | .regacc _ => some .jtag
  | .regaccCapture => none
  | .access _ _ => none
  | .portARead _ _ _ => none
  | .portAWrite _ _ _ _ => none
  | .accAdd _ _ _ _ => none
  | .accLoad _ _ _ _ => none
  | .accClear _ _ _ _ => none
  | .ldk _ _ _ _ => none
  | .direct _ _ _ => none
  | .portBRequest _ _ _ _ => none
  | .portBService _ => none
  | .bankHandover v _ _ => some v
  | .bankFillDone _ => none
  | .nop => none
  | .fadr => none
  | .regmask => none
  | .frame => none
  | .endPkt => none
  | .loadHeader => none
  | .loadChecksDone => none
  | .startSide v => some v
  | .cfgFdatWrite v _ => some v
  | .abort v => some v
  | .loadTimeout => none
  | .loadStart => none
  | .swap (.reg v _) => some v
  | .swap (.desc _) => none
  | .swapCancel (.reg v _) => some v
  | .swapCancel (.desc _) => none
  | .clear (.reg v _) => some v
  | .clear (.desc _) => none
  | .swapEdge _ _ => none
  | .drainDeadline _ => none
  | .configScrubRead _ _ => none
  | .slotEdge => none
  | .oosClear => none
  | .frameBoundary => none
  | .systimeLoad v _ => some v
  | .timCtlWrite v _ => some v
  | .timFlenWrite v _ => some v
  | .timHlenWrite v _ => some v
  | .timArangeWrite v _ _ => some v
  | .almanacEntryWrite v _ => some v
  | .afile _ => none
  | .afileDone _ => none
  | .copyPage (.reg v _) => some v
  | .copyPage (.desc _) => none
  | .pageCopyDone _ => none
  | .flip (.reg v _) => some v
  | .flip (.desc _) => none
  | .flipCheckDone _ => none
  | .flipCancel (.reg v _) => some v
  | .flipCancel (.desc _) => none
  | .dramRefresh _ => none
  | .queueConfig v _ => some v
  | .submission _ => none
  | .admission => none
  | .spillReturn _ _ => none
  | .cellDelivery _ => none
  | .final _ => none
  | .late _ _ => none
  | .dbcnt _ _ => none
  | .fspEntryRead _ => none
  | .fspCompletionWord _ => none
  | .fspRingEnable v _ _ => some v
  | .fspOwnerWrite v _ _ => some v
  | .migrate (.reg v _) => some v
  | .migrate (.desc _) => none
  | .sqDoorbell _ _ _ _ => none
  | .cqDoorbell _ _ _ _ => none
  | .ringConfig v _ => some v
  | .descriptorFetch _ _ => none
  | .xfer _ => none
  | .rxbuf _ => none
  | .load _ _ => none
  | .jdrain _ => none
  | .copy _ => none
  | .copyStart _ => none
  | .unit _ => none
  | .descInvalid _ => none
  | .completionWrite => none
  | .msixCoalesce _ => none
  | .hcapChange _ _ => none
  | .flr _ => none
  | .linkDown _ => none
  | .segCtlWrite v _ _ => some v
  | .beacon _ => none
  | .beaconReceived _ => none
  | .beaconerr _ => none
  | .toTimer _ => none
  | .transmitOpportunity _ _ => none
  | .segFrameReceived _ _ => none
  | .rosterCommit v _ => some v
  | .nodeAbsent _ _ => none
  | .slotBlockReceived _ _ _ _ => none
  | .linkCellReceived _ _ _ => none
  | .linkEnable v _ _ => some v
  | .linkDisable v _ _ => some v
  | .laneLock _ => none
  | .hello _ _ => none
  | .ack _ _ => none
  | .ready _ _ => none
  | .handshakeTimeout _ => none
  | .absent _ => none
  | .retrain _ => none
  | .lockReturn _ => none
  | .retryTimer _ => none
  | .dramTraining _ _ => none
  | .dramRequest _ _ _ _ => none
  | .dramCompletion _ _ _ => none
  | .windowFill v _ _ => some v
  | .fillDone _ => none
  | .scrubVisit _ _ _ => none
  | .memLogpop v _ => some v
  | .bnkRetire v _ => some v
  | .memRetire v _ => some v
  | .deferredStart => none
  | .chatyReset => none
  | .info => none
  | .sense _ _ => none
  | .fwUpdate => none
  | .mgmtTimeout => none
  | .hartLoad _ _ _ _ _ => none
  | .hartStore _ _ _ _ => none
  | .storeDrain _ => none
  | .fence _ _ _ => none
  | .fenceI _ => none
  | .lr _ _ _ => none
  | .sc _ _ _ _ _ => none
  | .amo _ _ _ _ _ _ => none
  | .wfi _ => none
  | .hartTrap _ _ _ _ => none
  | .hartRun v _ _ => some v
  | .rst v _ _ => some v
  | .evtClaim v _ => some v
  | .pinConfigWrite v _ _ _ => some v
  | .switchEdge _ => none
  | .pinSet v _ _ => some v
  | .pinClr v _ _ => some v
  | .pinTgl v _ _ => some v
  | .edgeCommit v _ => some v
  | .timedEdgeApply _ => none
  | .pinLevelChange _ _ => none
  | .pinTpop v _ => some v
  | .patternCommit v _ => some v
  | .serialControlWrite v _ _ => some v
  | .serialByteWrite v _ _ => some v
  | .last v _ _ => some v
  | .start v _ _ => some v
  | .stop v _ _ => some v
  | .readByte v _ _ => some v
  | .serialDataRead v _ => some v
  | .serialByteReceived _ _ _ => none
  | .serialByteSent _ _ => none
  | .eventRaise _ => none
  | .eventDelivery _ => none
  | .evtClr v _ => some v
  | .evtRteWrite v _ _ => some v
  | .doze v => some v
  | .sleep v => some v
  | .deep v => some v
  | .cancelOrWake v => some v
  | .entryBegin => none
  | .avsVoltageChange => none
  | .avsRetry => none
  | .avsSetpoint _ => none
  | .smbusWake _ => none
  | .wakePin _ => none
  | .alarm => none
  | .wake => none
  | .wakefail => none
  | .thermWarn => none
  | .therm => none
  | .thermRelease => none
  | .pwrPadRelease v _ => some v
  | .pwrReset v _ => some v
  | .pwrPrst v _ => some v
  | .toVtest _ => none
  | .toShipped _ => none
  | .sealStep _ => none
  | .unsealStep _ => none
  | .returnStep _ => none
  | .scrap _ => none
  | .burnDone => none
  | .wipeDone => none
  | .keyWrite => none
  | .keyClear => none
  | .dbgCcmd v _ => some v
  | .dbgChal => none
  | .challengeLapse => none
  | .dbgRdat v _ => some v
  | .go v => some v
  | .clr v => some v
  | .dbgResp => none
  | .responseIntake => none
  | .responseCheck _ => none
  | .openSession v => some v
  | .journalCommit => none
  | .jdrainClose => none
  | .journalSpill _ => none
  | .freeze v _ => some v
  | .freezeEdge _ => none
  | .release v _ => some v
  | .resumeEdge _ => none
  | .dbgPrgn v _ => some v
  | .dbgPlineWrite v _ _ => some v
  | .flRead => none
  | .flProg => none
  | .sectorErase => none
  | .blockErase => none
  | .markBad => none
  | .eraseDone => none
  | .erasefail => none
  | .eraseSuspend => none
  | .eraseResume => none
  | .quotaCommit v _ _ => some v
  | .userClockEdge => none
  | .csmaAttempt _ _ => none
  | .hostReadCompletion _ _ => none
  | .configurationSpaceWrite _ _ => none
  | .mgmtCodeInvalid => none
end Sys2Proof
end

