-- ==== Sys2Proof/Safety.lean ====
section
/-! DEFINITION. What holds of every state that a run meets: canonical memories, the bounds of the buffers that the
manual numbers, the length of a slot, and well-formed commands in the queue. -/

namespace Sys2Proof.Machine

/-- The banks' data and check statuses are canonical (R117). -/
def Banks.ok (b : Banks) : Prop := Memory.wf 0 b.data = true ∧ Table.wf Chk.ue b.chk = true

/-- DRAM is canonical (R304, R305), and an error log FIFO holds at most 64 records (R315). -/
def Dram.ok (d : Dram) : Prop := Memory.wf 0 d.data = true ∧ ∀ e ∈ d.log, e.2.length ≤ 64

/-- The flash array is canonical (R409). -/
def Flash.ok (f : Flash) : Prop := Memory.wf 0xFF f.data = true

/-- A slot is 599, 600 or 601 F1 cycles long, and the edges counted in it stay within it (R188). -/
def Clock.ok (c : Clock) : Prop := (c.slotLen = 599 ∨ c.slotLen = 600 ∨ c.slotLen = 601) ∧ c.k ≤ c.slotLen

/-- The intake holds at most 8 entries, and records wait only behind a full one (R394, R395). -/
def Journal.ok (j : Journal) : Prop := j.intake.length ≤ 8 ∧ (j.waiting = [] ∨ j.intake.length = 8)

/-- A store buffer holds at most four stores (R336), and x0 reads 0 (R332). -/
def Hart.ok (x : Hart) : Prop := x.store.length ≤ 4 ∧ tget 0 x.x 0 = 0

/-- The addressed memories are canonical, and the error log keeps its bound. -/
def State.memoriesOk (s : State) : Prop := s.bank.ok ∧ s.dram.ok ∧ s.flash.ok

/-- Slots, journal intake and harts keep their bounds. -/
def State.enginesOk (s : State) : Prop :=
  s.clk.ok ∧ s.jrn.ok ∧ s.hart0.ok ∧ s.hart1.ok ∧ s.hart2.ok ∧ s.hart3.ok

/-- Every command that waits is well formed. -/
def State.queueOk (s : State) : Prop := ∀ i ∈ s.pending, i.wf = true

/-! ### When a command's effect comes at once -/

/-- The journal writer runs, no record waits for it, none was lost, and no port access is in progress: what the bus
serves next meets nothing that came before it (R37, R394). -/
structure State.Quiet (s : State) : Prop where
  started : s.clk.started = true
  busUp : s.mode.busUp = true
  intake : s.jrn.intake = []
  waiting : s.jrn.waiting = []
  missed : s.jrn.missedCount = 0
  side : s.side.acc.inProgress = false
  tap : s.tap.acc.inProgress = false

/-- A partition's share takes one more record without becoming full, and JRN_FULL tells of every full share; or no
sink is enabled (R396). -/
def State.room (s : State) (p : Nat) : Prop :=
  sinkOn s = false ∨ (shareUsed s p + 1 < jrnShare s p ∧ ∀ q ∈ fullShares s, q ∈ s.jrn.full)

/-- A register's write through a view reaches it and is accepted: it is visible, its domain runs (R48), and no refusal of
R430 meets the value, which holds _HI:_LO for a two-word commit. -/
def accepts (s : State) (v : View) (reg : Reg) (i val : Nat) : Prop :=
  ∃ r, regMap.find? (·.reg == reg) = some r ∧ i < r.count ∧ visible s v r i = true ∧ readOnly s v r = false
    ∧ writeCheck s v r i val = none ∧ busAborts s v (r.off i) = false

/-- The value a write brings: _HI:_LO for the low half of a two-word register (R44). -/
def fullValue (s : State) (v : View) (r : RegRow) (i : Nat) (val : Word) : Nat :=
  if r.half = .lo then (holding s v (r.off i - 4)).toNat * 65536 + val.toNat else val.toNat

/-- Quiet, with room for a record of the view's partition, and a write of a register that is accepted. -/
def State.takes (s : State) (v : View) (reg : Reg) (i val : Nat) : Prop :=
  s.Quiet ∧ s.room (viewPart s v) ∧ accepts s v reg i val

/-- A command, and the commit of the one record it leaves, lead to a state (R394). -/
def State.ends (s : State) (c : Instr) (u : State) : Prop :=
  ∃ t, exec c s = .next t ∧ exec .journalCommit t = .next u

/-- The same where what the commit leaves is told by a property. -/
def State.commitsTo (s : State) (c : Instr) (v : View) (reg : Reg) (i val : Nat) (Q : State → Prop) : Prop :=
  s.takes v reg i val → ∃ u, s.ends c u ∧ Q u

/-- The journal after one more record: it has the next SEQ, and nothing waits (R391, R394). -/
def oneMore (s : State) (j : Journal) : Prop :=
  j.intake = [] ∧ j.waiting = [] ∧ j.missedCount = 0 ∧ j.lastSeq = some s.jrn.seq ∧ j.seq = (s.jrn.seq + 1) % 2 ^ 32

/-- A command that writes a journaled register is accepted, leaves one record, and with the record's commit changes the
state by `f`; `val` holds _HI:_LO for a two-word commit (R43, R394). -/
def State.commits (s : State) (c : Instr) (v : View) (reg : Reg) (i val : Nat) (f : State → State) : Prop :=
  s.takes v reg i val → ∃ j, oneMore s j ∧ s.ends c (f { s with jrn := j })

/-- An event source has become pending; beside the event controller and its pulses to event-out pins nothing changes
(R357). -/
def Raised (s : State) (n : Nat) (t : State) : Prop :=
  n ∈ t.ev.pending ∧ (∀ m, m ≠ n → (m ∈ t.ev.pending ↔ m ∈ s.ev.pending)) ∧ ∃ e o, t = { s with ev := e, outs := o }

/-! ### Ports -/

/-- s with a side-port transaction open, after its header (R49, R50). -/
def State.opened (s : State) : State :=
  { s with side := { s.side with selected := true }, outs := s.outs ++ [.miso [0xFF, 0xFF, 0xFF, 0xFF]] }

/-- s with an instruction shifted into the TAP, whose data register holds a value (R51). -/
def State.shifted (s : State) (ir : Nat) (x : BitVec 48) : State :=
  { s with tap := { s.tap with ir := ir, irCapture := 1, dr := x }, outs := s.outs ++ [.tdo 1] }

/-- s with a value in the data register of REGACC, which is shifted in first where it does not stand (R52). -/
def State.scanned (s : State) (x : BitVec 48) : State :=
  if s.tap.ir = 0x10 then { s with tap := { s.tap with dr := x } } else s.shifted 0x10 x

/-! ### Hard sites -/

/-- A capture has changed one MAC site and nothing else; its OUT still shows what it did, and a result is on its way
(R69, R134). -/
def OnlyMac (s : State) (r tl : Nat) (t : State) : Prop :=
  { t with fab := { t.fab with mac := s.fab.mac, captured := s.fab.captured } } = s
    ∧ t.fab.captured = sins (siteKey r tl) s.fab.captured
    ∧ (∀ k, k ≠ siteKey r tl → tget {} t.fab.mac k = tget {} s.fab.mac k)
    ∧ (macOf t r tl).out = (macOf s r tl).out
    ∧ ∃ x, (macOf t r tl).pend = (macOf s r tl).pend ++ [(s.clk.f1 + 3, x)]

/-! ### Descriptors -/

/-- A ring pair's next fetched descriptor is `d`, and no NOP descriptor, which needs no command of its own, comes right
behind it (R249). -/
def State.offers (s : State) (g : Nat) (d : BitVec 256) (rest : List (BitVec 256)) : Prop :=
  g < deadRing ∧ (ringOf s g).fetched = d :: rest
    ∧ ∀ e, rest.head? = some e → descGood e = false ∨ dOp e ≠ 0

/-- s once a ring pair has handed its next descriptor over. -/
def State.took (s : State) (g : Nat) (rest : List (BitVec 256)) : State := setRing s g { ringOf s g with fetched := rest }

/-- The DONE entry of a descriptor (Table 11-6). -/
def doneCpl (g : Nat) (d : BitVec 256) (status cause value : Nat) : Cpl :=
  ⟨g, kDone, status, cause, dTag d, value, 0, 1, [], [], none⟩

/-- s with the DONE entry of the descriptor just handed over. -/
def State.doneWith (s : State) (g : Nat) (d : BitVec 256) (rest : List (BitVec 256)) (status cause value : Nat) : State :=
  { s.took g rest with host := { (s.took g rest).host with cpl := s.host.cpl ++ [doneCpl g d status cause value] } }

/-! ### Loads -/

/-- What a failed load leaves (R153, R155, R161): no load runs, its view's registers tell, nothing of it stays in the
shadow plane, the active plane is untouched outside device loads, and a device load takes its mode path. -/
structure LoadFailed (s : State) (l : Load) (status cause : Nat) (t : State) : Prop where
  running : t.ldr.running = none
  shown : loadStat t l.view = { loadStat t l.view with state := 3, status := status, cause := cause }
  shadow : ∀ k, fkRegion k ∈ regionsWritten l → tget [] t.fab.shadow.frames k =
    if l.device = true ∧ pathCode l.path ≠ 0 then [] else tget [] s.fab.active.frames k
  idle : l.device = false → ∀ r ∈ l.regmask.getD [], claimed t r = false → shadowOf t r = .idle
  active : l.device = false → pathCode l.path ≠ 0 → t.fab.active = s.fab.active ∧ t.mode = s.mode
  back : l.device = true → pathCode l.path ≠ 0 → t.mode = .m2 ∧ t.fab.active = {}
  primary : l.path = .slot 1 → t.ldr.fallbackDue = true ∧ t.ldr.boot.pcause = cause ∧ t.mode = s.mode
  second : l.path = .slot 2 → t.mode = .m4 ∧ t.pwr.cfgErr = true ∧ t.ldr.boot.fcause = cause

/-- The running load stands before a packet of a kind and a number of words, whose words after the header are these in
clear (R146). -/
structure AtPacket (s : State) (l : Load) (kind : Packet) (n : Nat) (ws : List Word) : Prop where
  running : s.ldr.running = some l
  phase : l.phase = .stream
  fits : l.pos + n ≤ 32 + l.len
  head : ∃ h, imgReads s l l.pos 1 = some (some [h])
    ∧ packetOf (nthD 0 (clearWords s l l.pos [h]) 0).toNat = some (kind, n)
  body : ∃ raw, imgReads s l (l.pos + 1) (n - 1) = some (some raw) ∧ clearWords s l (l.pos + 1) raw = ws

/-! ### Segment ports and links -/

/-- A port may send the one frame of a transfer's leg with this command: in its own transmit opportunity, within MAXBC
and, for an unbooked frame, SEG_MAXB, or under CSMA/CD; and no cell of the frame reads as uncorrectable (R263, R275,
R276, R278). -/
def segSends (s : State) (k : Nat) (f : TxResult → Instr) (x : Xfer) (l : Leg) : Prop :=
  x.bad = []
    ∧ ((f = .transmitOpportunity k ∧ segState s k = .active ∧ (segOf s k).node = ownNode s k
        ∧ (segOf s k).oppFrames ≤ segPlca s k % 256
        ∧ (bookedFrame s k = some (x, l) ∧ mayAttempt s k x l = true
          ∨ bookedFrame s k = none ∧ nextFrame s k = some (x, l) ∧ (segOf s k).oppBytes + wireOf x ≤ segMaxb s k))
      ∨ (f = .csmaAttempt k ∧ (segState s k = .csma ∨ segState s k = .fallback) ∧ nextFrame s k = some (x, l)))

/-- A counter of a segment port: PART 0 word j at j, PART 1 word j at 8 + j (Table 12-4). -/
def segCnt (s : State) (k j : Nat) : Nat := tget 0 (segOf s k).cnt j

/-- SEG_EVT of a port. -/
def segEvt (s : State) (k : Nat) : Word := dev s (0x61800 + 4 * k) 0

/-- A bit of SEG_EVT is set; where it was clear, the port's event was raised (R283). -/
def SegTold (s : State) (k b : Nat) (t : State) : Prop :=
  (segEvt t k).getLsbD b = true ∧ ((segEvt s k).getLsbD b = false → k < 192 → 1024 + k ∈ t.ev.pending)

/-- A counter of a link (R299). -/
def lnkCnt (s : State) (k j : Nat) : Nat := tget 0 (linkOf s k).cnt j

/-- A bit of LNK_EVT is set; where it was clear, the link's event was raised. -/
def LinkTold (s : State) (k b : Nat) (t : State) : Prop :=
  (dev t (0x70160 + 4 * k) 0).getLsbD b = true
    ∧ ((dev s (0x70160 + 4 * k) 0).getLsbD b = false → k < 8 → 1216 + k ∈ t.ev.pending)

/-- A step that changed one link alone, and told of it at most in LNK_EVT. -/
def OnlyLink (s : State) (k : Nat) (t : State) : Prop :=
  (∀ j, j ≠ k → linkOf t j = linkOf s j)
    ∧ { t with link := s.link, regs := s.regs, ev := s.ev, outs := s.outs } = s

/-! ### Management requests -/

/-- Chaty has the whole request of a partition: a request of a code, with these bytes (R329, R331). -/
structure InService (s : State) (p : Nat) (m : MReq) (code : Nat) (bs : List Byte) : Prop where
  next : chatyNext s = some (p, m)
  up : chatyUp s = true
  code : m.code = code
  working : m.working = false
  bytes : m.bytes = some bs
  failed : m.failed = false

/-- A management request has ended: its response is written before its DONE entry, and Chaty is free for the next
partition in turn (R329 to R331). -/
structure MgmtEnds (s : State) (p : Nat) (m : MReq) (status : Nat) (rsp : List Byte) (t : State) : Prop where
  serving : t.mgt.serving = none
  last : t.mgt.lastServed = p
  cpl : m.ring < deadRing → t.host.cpl = s.host.cpl ++
    [⟨m.ring, kDone, status, 0, m.tag, rsp.length, 0, 1, if rsp.isEmpty then [] else [(m.rspAddr, rsp)], [], some p⟩]
  silent : deadRing ≤ m.ring → t.host.cpl = s.host.cpl
  open_ : ((tget [] t.mgt.places p).filter (!·.ended)).length + 1 = ((tget [] s.mgt.places p).filter (!·.ended)).length
  others : ∀ q, q ≠ p → tget [] t.mgt.places q = tget [] s.mgt.places q

/-- Nothing but Chaty's queues and the completions toward the host has changed. -/
def OnlyMgmt (s t : State) : Prop := { t with mgt := s.mgt, host := s.host } = s

/-- The command of a life-cycle step (Table 18-2). -/
def stepInstr : Step → Bool → Instr
  | .toVtest, m => .toVtest m
  | .toShipped, m => .toShipped m
  | .seal_, m => .sealStep m
  | .unseal, m => .unsealStep m
  | .return_, m => .returnStep m
  | .scrap, m => .scrap m

/-- The checks of a life-cycle step in the order of Table 18-3, each with the cause that it gives. -/
def stepChecks (s : State) (st : Step) (margin : Bool) : List (Prop × Nat) :=
  [((stepTo st s.lc.state).isSome, 1),
   (s.mode = .m2 ∨ s.mode = .m4 ∨ (s.mode = .m5 ∧ st ≠ .return_ ∧ st ≠ .scrap), 2),
   (st = .seal_ ∨ st = .unseal → stepsDone s < 30, 3),
   (st = .toVtest ∨ st = .toShipped ∨ st = .unseal → s.lc.grants.testBit 2 = true, 4),
   (margin = true ∧ pwrPend s = false, 5),
   (s.flash.op = none ∧ s.lc.burn = none, 6)]

/-- A Chaty step is journaled: one record of a kind with one change, while the request stays open (R394). -/
def MgmtJournaled (s : State) (kind : Nat) (c : Change) (t : State) : Prop :=
  (∃ e, t.jrn.intake = [e] ∧ e.record.kind = kind ∧ e.changes = [c]) ∧ t.host = s.host
    ∧ { t with mgt := s.mgt, jrn := s.jrn } = s

/-- The journal writer runs, its intake holds one entry with one change, and no sink is enabled: the next commit lets
this change take effect. -/
structure CommitsNext (s : State) (c : Change) : Prop where
  started : s.clk.started = true
  busUp : s.mode.busUp = true
  waiting : s.jrn.waiting = []
  missed : s.jrn.missedCount = 0
  sink : sinkOn s = false
  entry : ∃ e, s.jrn.intake = [e] ∧ e.changes = [c]

/-- The request of P0 and of a code that Chaty works on ends, where there is one. -/
def WorkEnds (s : State) (code status : Nat) (rsp : List Byte) (t : State) : Prop :=
  (∀ m, openReq s 0 = some m → m.working = true → m.code = code → MgmtEnds s 0 m status rsp t)
    ∧ ((∀ m, openReq s 0 = some m → m.working = false ∨ m.code ≠ code) → t.mgt = s.mgt ∧ t.host = s.host)

/-- The checks of a debug response in order, each with its cause (Table 18-5). -/
def responseChecks (s : State) (bytes : List Byte) (c : Challenge) (margin : Bool) : List (Prop × Nat) :=
  [(bytes.length = 96 ∧ signatureGood Config.debugKey (chalBytes c) bytes = true, 2),
   (c.scope.testBit 1 = true → testAllowed s = true, 3),
   (needsToken s c.scope = true → margin = true ∧ pwrPend s = false, 5),
   (needsToken s c.scope = true → s.flash.op = none ∧ s.lc.burn = none, 6)]

/-- A response has ended with a cause: the view's DBG_STAT tells, or the management request ends (R387, R388). -/
def ResponseTold (s : State) (src : RspSrc) (cause : Nat) (t : State) : Prop :=
  (if cause = 0 then 1841 else 1842) ∈ t.ev.pending
    ∧ (∀ v, src = .view v → tget {} t.lc.stat (viewCode v) = ⟨if cause = 0 then 2 else 3, cause⟩
        ∧ t.mgt = s.mgt ∧ t.host = s.host)
    ∧ (src = .mgmt → t.lc.stat = s.lc.stat ∧ WorkEnds s 0x0023 (if cause = 0 then stOk else stRefused) (leBytes 2 cause) t)

/-- A granted scope has come into force; TEST in M2 or M4 opens M10 (R388). -/
def ScopeGranted (s : State) (src : RspSrc) (scope : Nat) (t : State) : Prop :=
  t.lc.grants = Nat.lor s.lc.grants scope ∧ t.lc.granting = none ∧ ResponseTold s src 0 t
    ∧ t.mode = if scope.testBit 1 && (s.mode == .m2 || s.mode == .m4) then .m10 else s.mode

/-! ### Flash requests -/

/-- The checks of a flash request that touches n bytes, in order, each with its status and cause (R411, Table 20-3);
`form` is what Table 20-2 asks of its fields. -/
def flashChecks (s : State) (p : Nat) (r : FlReq) (n : Nat) (okOp form : Prop) : List (Prop × Nat × Nat) :=
  let a := (areaOf s p r.area).1 + r.off
  let inside := r.off + n ≤ (areaOf s p r.area).2
  [(okOp ∧ r.area ≤ 3 ∧ (r.area = 0 ∨ p = 0), stDenied, 1),
   (inside → ∀ k ∈ blocksOf a n, badBlock s k = false, stDenied, 3),
   (form ∧ inside, stInvalid, 2),
   (r.area = 0 → s.lc.wipe = false, stBusy, 9),
   (inside → ∀ k ∈ blocksOf a n, 0xB00 ≤ k → k - 0xB00 ∉ s.flash.pendingBlocks, stBusy, 10)]

/-- What Table 20-2 asks of a read, of a program with its data, and of an erase or a mark of a unit. -/
def readForm (r : FlReq) : Prop :=
  2 ≤ r.len ∧ r.len ≤ 65536 ∧ r.off % 2 = 0 ∧ r.len % 2 = 0 ∧ (r.area = 3 → r.off % 4096 = 0 ∧ r.len % 4096 = 0)
def progForm (r : FlReq) (data : List Byte) : Prop :=
  2 ≤ r.len ∧ r.len ≤ 4096 ∧ r.off % 2 = 0 ∧ r.len % 2 = 0 ∧ r.off / 4096 = (r.off + r.len - 1) / 4096 ∧ data.length = r.len
def unitForm (r : FlReq) (unit : Nat) : Prop := r.off % unit = 0 ∧ r.len = 0

/-- A word that a read delivers: outside half-erased sectors, and free of ECC failures (R410, R414). -/
def goodWord (s : State) (a : Nat) : Prop := halfErased s (a / 4096) = false ∧ a / 2 ∉ s.flash.badWords

/-- The FL_ERASE request of a partition that Chaty works on, where there is one, ends. -/
def RequestEnds (s : State) (q status : Nat) (rsp : List Byte) (t : State) : Prop :=
  ∀ m, openReq s q = some m → m.working = true → m.code = 0x0012 → MgmtEnds s q m status rsp t

/-! ### Harts -/

/-- Nothing but one hart has changed. -/
def OnlyHart (s : State) (h : Nat) (t : State) : Prop := t = setHart s h (hartOf t h)

/-- The harts that a predicate names do nothing by themselves: they are OFF, and no store of theirs waits. -/
def State.still (s : State) (which : Nat → Prop) : Prop :=
  ∀ g, g < 4 → which g → (hartOf s g).state = .off ∧ (hartOf s g).store = []

/-- A hart has taken a trap (R339): it goes to mtvec with the CSRs written, and nothing else changes. -/
structure TrapTaken (s : State) (h : Nat) (intr : Bool) (code : Nat) (tval : BitVec 32) (t : State) : Prop where
  taken : t = setHart s h { hartOf s h with
    state := .run, mepc := (hartOf s h).pc, mcause := BitVec.ofNat 32 (place intr 31 + code), mtval := tval,
    mpie := (hartOf s h).mie, mie := false, pc := (hartOf s h).mtvec, reservation := none, prefetch := [], wait := none,
    lastInt := intr, lastCode := code }
  others : ∀ g, g < 4 → g ≠ h → hartOf t g = hartOf s g
  x : (hartOf t h).x = (hartOf s h).x

/-- A hart's fetch at mtvec itself has faulted: it stops in FAULT, and its event is raised (R339). -/
structure HartStops (s : State) (h : Nat) (tval : BitVec 32) (t : State) : Prop where
  state : (hartOf t h).state = .fault
  mcause : (hartOf t h).mcause = 1
  mepc : (hartOf t h).mepc = (hartOf s h).pc
  mtval : (hartOf t h).mtval = tval
  told : h < 4 → 1872 + h ∈ t.ev.pending
  others : ∀ g, g < 4 → g ≠ h → hartOf t g = hartOf s g

/-- A hart after an instruction that writes rd: one more is retired, and the pc lies behind it (R332). -/
def Hart.wrote (x : Hart) (rd : Nat) (v : BitVec 32) : Hart :=
  retire { x with x := if rd = 0 then x.x else tset 0 x.x rd v }

/-- A hart after its reset: general registers kept, CSRs at reset, at its boot address, running or OFF (R342). -/
def Hart.booted (x : Hart) (boot : BitVec 32) (run : Bool) : Hart :=
  { x := x.x, state := if run then .run else .off, pc := boot, mtvec := boot }

/-- A hart waits for a port B access of an instruction, which the bank has taken or refused (R336, R337). -/
structure Awaits (s : State) (h : Nat) (addr : BitVec 32) (w : Nat → HartWait) (y : Hart) (t : State) : Prop where
  hart : hartOf t h = { y with wait := some (w s.bank.nextId), waitAddr := addr }
  id : t.bank.nextId = s.bank.nextId + 1
  rest : setHart { t with bank := s.bank } h (hartOf s h) = s

/-! ### What a reset clears -/

/-- The core state that every reset clears: the register tables of views and partitions, the ports, the fabric, the
banks, the loader, the Almanac, the queue engine, the host interface, segment ports and links, the harts, events and
capture (Table 17-4). -/
structure CoreCleared (t : State) : Prop where
  started : t.clk.started = false
  vregs : t.vregs = []
  pregs : t.pregs = []
  hold : t.hold = []
  framed : t.framed = []
  mbx : t.mbx = []
  side : t.side = {}
  fab : t.fab = {}
  bank : t.bank = {}
  ldr : t.ldr = {}
  swp : t.swp = {}
  alm : t.alm = {}
  qe : t.qe = {}
  host : t.host = {}
  seg : t.seg = []
  roster : t.roster = []
  link : t.link = []
  hart0 : t.hart0 = {}
  hart1 : t.hart1 = {}
  hart2 : t.hart2 = {}
  hart3 : t.hart3 = {}
  ev : t.ev = {}
  cap : t.cap = {}

/-- What outlives every reset: flash contents, OTP words, the burn under way, the keys, the life-cycle state until it is
read again, and the queue of commands (Table 17-4, R373). -/
structure Outlives (s t : State) : Prop where
  flash : t.flash.data = s.flash.data
  inc : t.flash.inc = s.flash.inc
  steps : t.lc.steps = s.lc.steps
  tokens : t.lc.tokens = s.lc.tokens
  burn : t.lc.burn = s.lc.burn
  keys : t.lc.keys = s.lc.keys
  lcState : t.lc.state = s.lc.state
  queue : t.pending = s.pending

/-- What power-on reset leaves: M1 out of M0, always-on registers cleared too, DRAM contents as far as VDDQ held (R51,
R370). -/
def PorLeaves (s : State) (held : Bool) (t : State) : Prop :=
  t.mode = .m1 ∧ t.last = .m0 ∧ t.regs = [] ∧ t.tap = {} ∧ CoreCleared t ∧ Outlives s t
    ∧ t.dram.data = if held then s.dram.data else []

/-- What device reset leaves: M1 out of the mode it met, always-on registers, the TAP's instruction and data registers and
DRAM contents kept, no port access under way, its cause added to PWR_RSTCAUSE, pad hold released (R51, R370, Table 17-4). -/
def DeviceResetLeaves (s t : State) (cause : Nat) : Prop :=
  t.mode = .m1 ∧ t.last = s.mode ∧ t.regs = tkeep alwaysOn s.regs
    ∧ { t.tap with acc := s.tap.acc } = s.tap ∧ t.tap.acc.inProgress = false ∧ CoreCleared t ∧ Outlives s t
    ∧ t.dram.data = s.dram.data ∧ t.pwr.rstCause = s.pwr.rstCause ||| BitVec.ofNat 16 (2 ^ cause) ∧ t.pwr.held = 0

end Sys2Proof.Machine
end

