-- ==== Sys2Proof/Certificates/Slice0/Obligations.lean ====
section
/-! DEFINITION. The statements for the provers. -/

open Sys2Proof Sys2Proof.Machine

/-- A step takes the command at the front of the queue and runs exec on it with the queue's rest; with no command
waiting it idles. What the manual leaves open here follows the model's own choices, log entry 1. -/
def Obligations.StepRunsFrontCommand : Prop :=
  (∀ (c : Instr) (rest : List Instr) (s : State), s.pending = c :: rest → step s = exec c { s with pending := rest })
    ∧ ∀ s : State, s.pending = [] → step s = .next s

/-- The invariants hold at reset. What the manual leaves open here follows the model's own choices, log entries 29,
30 and 31. -/
def Obligations.ResetMeetsInvariants : Prop :=
  State.reset.memoriesOk ∧ State.reset.enginesOk ∧ State.reset.queueOk

/-- Every step keeps the memories canonical (banks R117, DRAM R304, flash R409) and the error log FIFOs within 64
records (R315). What the manual leaves open here follows the model's own choices, log entry 31. -/
def Obligations.StepKeepsMemories : Prop :=
  ∀ s t : State, s.memoriesOk → step s = .next t → t.memoriesOk

/-- Every step keeps slots at 599 to 601 cycles, the journal's intake within its 8 entries with records waiting only
behind a full one, store buffers within 4 stores, and x0 at 0 (R188, R332, R336, R394, R395). -/
def Obligations.StepKeepsEngines : Prop :=
  ∀ s t : State, s.enginesOk → step s = .next t → t.enginesOk

/-- Every step takes the command at the front of the queue and no other, and adds none. What the manual leaves open
here follows the model's own choices, log entry 1. -/
def Obligations.StepKeepsQueue : Prop :=
  ∀ s t : State, step s = .next t → t.pending = s.pending.drop 1 ∧ (s.queueOk → t.queueOk)

/-- R36: a reserved or unimplemented location reads zero, ignores writes and writes no journal record. -/
def Obligations.ReservedLocations : Prop :=
  ∀ (s : State) (off : Nat), findReg off = none →
    (∀ v, peek s v off = 0)
    ∧ (s.Quiet → ∀ v be val, exec (.registerWrite v off be val) s = .next s)
    ∧ (s.Quiet → badHeader off = false → ∃ t, exec (.sideRead off) s = .next t ∧ t.side.acc.data = 0
        ∧ t.outs = s.opened.outs ++ [.misoWait, .miso [0x00, 0x00, 0x00]] ∧ { t with side := s.side, outs := s.outs } = s)

/-- R44: a value wider than 16 bits is written as _HI, then _LO. -/
def Obligations.TwoWordWrites : Prop :=
  (∀ (s : State) v off r i stg val, s.Quiet → findReg off = some (r, i, stg) → busAborts s v off = false → r.half = .hi →
      visible s v r i = true → readOnly s v r = false → ∃ t, exec (.hiWrite v off val) s = .next t ∧ holding t v off = val
        ∧ (∀ w o, viewKey (viewCode w) o ≠ viewKey (viewCode v) off → holding t w o = holding s w o)
        ∧ { t with hold := s.hold } = s)
  ∧ (∀ (s : State) v reg r i (val : BitVec 32) n, regMap.find? (·.reg == reg) = some r → r.half = .lo →
      n = (holding s v (r.off i - 4)).toNat * 65536 + val.toNat % 65536 →
      (s.takes v reg i n → journaling r n = .write → ∃ t j u, exec (.registerWrite v (r.off i) 0xF val) s = .next t
        ∧ exec .journalCommit t = .next u ∧ u = finishWrite (regApply { t with jrn := j } v r i n) v stOk
        ∧ t.hold = s.hold ∧ u.hold = s.hold)
      ∧ (s.Quiet → accepts s v reg i n → journaling r n = .none →
        exec (.registerWrite v (r.off i) 0xF val) s = .next (regApply s v r i n) ∧ (regApply s v r i n).hold = s.hold))
  ∧ (∀ v off, holding State.reset v off = 0)

/-- R59: what each flip-flop does on a rising edge of its CLKSEL domain, by the signals at D, CE and SR. -/
def Obligations.FlipFlops : Prop :=
  ∀ (s : State) (r tl c e i w k : Nat) (sr ce d : Bool), edgeDue s = true → r ∈ runningRegions s → tl < 16 → c < 16 → e < 16 →
    i < 2 → w = ctrlOf s.fab.active r tl c e → k = domPeriod (fld w 15 14) → (s.clk.f1 + 1) % k = 0 →
    badBits s (fkey 0 r tl 8) (16 * (16 * c + e)) 16 = false → (s.still fun _ => True) →
    sig s r tl (.x1 c (8 * e + 7)) 0 k = some sr → sig s r tl (.x1 c (8 * e + 6)) 0 k = some ce →
    (if w.testBit (7 - i) then sig s r tl (.x1 c (8 * e + 5)) 0 k else sig s r tl (.z c e i) 0 k) = some d →
    ∃ t, exec .userClockEdge s = .next t ∧ tget false t.fab.ff (ffKey r tl c e i) =
      if w.testBit (3 - i) && sr then w.testBit (1 - i)
      else if !w.testBit (5 - i) || ce then d
      else tget false s.fab.ff (ffKey r tl c e i)

/-- R381: the further effects of a completed life-cycle step. -/
def Obligations.CompletedSteps : Prop :=
  ∀ (s : State) (word code : Nat) (st : Step), s.lc.burn = some (.step word code) → stepOf code = some st →
    ∃ t, exec .burnDone s = .next t ∧ t.lc.opened = false ∧ t.lc.chal = none
      ∧ (st ≠ .seal_ → t.lc.grants = 0) ∧ (st = .seal_ → t.lc.grants = s.lc.grants % 2)
      ∧ t.fab = s.fab ∧ t.ldr = s.ldr ∧ t.mode = s.mode

/-- R340: WFI. -/
def Obligations.WaitForInterrupt : Prop :=
  ∀ (s : State) (h : Nat), h < 4 →
    (hartDoes s h .wfi = true → (hartOf s h).store ≠ [] → exec (.wfi h) s = .next s)
    ∧ (hartDoes s h .wfi = true → (hartOf s h).store = [] → ∃ t, exec (.wfi h) s = .next t ∧ (hartOf t h).state = .wfi)
    ∧ ((hartOf s h).state = .wfi → edgeDue s = true → hartRuns s h = true → (s.still fun g => g ≠ h) →
      (hartOf s h).store = [] → (hartOf s h).wait = none → (hartOf s h).prefetch = [] →
      ∃ t, exec .userClockEdge s = .next t
        ∧ ((mip t h &&& (hartOf t h).mieReg) = 0 → (hartOf t h).state = .wfi)
        ∧ ((mip t h &&& (hartOf t h).mieReg) ≠ 0 → (hartOf t h).state = .run))
    ∧ ((hartOf s h).state = .wfi → (∀ a n d, exec (.hartStore h a n d) s = .next s)
        ∧ (∀ rd a n sg, exec (.hartLoad h rd a n sg) s = .next s) ∧ (∀ intr c v, exec (.hartTrap h intr c v) s = .next s))

/-- POWER_ON_RESET, RST_N, THERM, PWR_RESET, SUPPLY_LOSS and THERM_RELEASE: what each reset clears, what outlives
it, and the cause it records (R359, R362, R370, R372, R373, Table 17-4). What the manual leaves open here follows
the model's own choices, log entries 8, 29, 32 and 86. -/
def Obligations.Resets : Prop :=
  (∀ (s : State) (held : Bool),
    (∃ t, exec (.powerOnReset .vauxLow held) s = .next t ∧ t.pwr.rstCause = 0x8000 ∧ PorLeaves (cutBurn s) held t)
    ∧ (s.mode ≠ .m9 → ∃ t, exec (.powerOnReset .pwrOkLow held) s = .next t ∧ t.pwr.rstCause = 0x8000 ∧ PorLeaves s held t)
    ∧ (∀ m, s.mode = .m0 ∨ monitored s m = true →
        ∃ t, exec (.powerOnReset (.supplyLow m) held) s = .next t ∧ t.pwr.rstCause = 0x8000 ∧ PorLeaves s held t)
    ∧ (∀ c, s.pwr.avs = some c → c.why = .wakeM8 ∨ c.why = .wakeAbort →
        ∃ t, exec (.powerOnReset .failedWake held) s = .next t ∧ t.pwr.rstCause = 0x8400 ∧ PorLeaves s held t))
  ∧ (∀ s : State,
    (s.mode ≠ .m0 → ∃ t, exec .rstN s = .next t ∧ DeviceResetLeaves s t 14)
    ∧ (s.mode ≠ .m0 → ∃ t, exec .therm s = .next t ∧ DeviceResetLeaves s t 12 ∧ t.pwr.thermHold = true)
    ∧ (∀ v, s.takes v .pwrReset 0 0x5E7A → ∃ u, s.ends (.pwrReset v 0x5E7A) u ∧ DeviceResetLeaves s u 13)
    ∧ (∃ t, exec .supplyLoss s = .next t ∧ t.mode = .m0 ∧ t.regs = [] ∧ t.dram.data = [] ∧ CoreCleared t
        ∧ Outlives (cutBurn s) t)
    ∧ exec .thermRelease s = .next { s with pwr := { s.pwr with thermHold := false } })

/-- RESET_RELEASE and FALLBACK_LOAD: clocks, incarnation, life-cycle state, and the path of Table 1-4 (R16, R155,
R298, R344, R377). What the manual leaves open here follows the model's own choices, log entries 2 and 8. -/
def Obligations.ResetRelease : Prop :=
  (∀ (s : State) (vccio : BitVec 32) (bad : List Nat),
      s.mode = .m1 → s.clk.started = false → s.pwr.thermHold = false → s.lc.burn = none →
      ∃ t, exec (.resetRelease vccio bad) s = .next t ∧ t.clk.started = true ∧ t.clk.boundaryDue = true
        ∧ t.clk.systime = s.clk.systime ∧ t.pins.vstat = vccio ∧ t.flash.inc = s.flash.inc + 1 ∧ t.regs = s.regs
        ∧ t.lc.state = decodeSteps s bad ∧ t.last = .m1
        ∧ (decodeSteps s bad = .lost → t.mode = .m11)
        ∧ (decodeSteps s bad = .scrap → t.mode = .m2 ∧ t.ldr.boot = s.ldr.boot)
        ∧ (decodeSteps s bad ≠ .lost → decodeSteps s bad ≠ .scrap →
            (slotEmpty s 1 = true → slotEmpty s 2 = true → t.mode = .m2 ∧ t.ldr.running = s.ldr.running
              ∧ t.ldr.boot = { s.ldr.boot with pempty := true, fempty := true })
            ∧ (slotEmpty s 1 = true → slotEmpty s 2 = false → t.mode = .m3 ∧ t.ldr.fallbackDue = true
              ∧ t.ldr.boot = { s.ldr.boot with pempty := true })
            ∧ (slotEmpty s 1 = false → t.mode = .m3 ∧ t.ldr.boot = s.ldr.boot
              ∧ ∃ l, t.ldr.running = some l ∧ l.path = .slot 1 ∧ l.device = true ∧ l.phase = .header ∧ l.pos = 0)))
    ∧ (∀ s : State, s.ldr.fallbackDue = true → slotEmpty s 2 = true →
        ∃ t, exec .fallbackLoad s = .next t ∧ t.mode = .m4 ∧ t.last = s.mode ∧ t.pwr.cfgErr = true
          ∧ t.ldr.fallbackDue = false ∧ t.ldr.boot = { s.ldr.boot with fempty := true } ∧ t.fab.active = {}
          ∧ t.ldr.running = s.ldr.running ∧ t.regs = s.regs)
    ∧ (∀ s : State, s.ldr.fallbackDue = true → slotEmpty s 2 = false →
        ∃ t l, exec .fallbackLoad s = .next t ∧ t.mode = s.mode ∧ t.ldr.fallbackDue = false ∧ t.fab.active = {}
          ∧ t.ldr.running = some l ∧ l.path = .slot 2 ∧ l.device = true ∧ l.phase = .header ∧ l.pos = 0
          ∧ t.ldr.boot = s.ldr.boot ∧ t.regs = s.regs)

/-- REF_FAULT, REF_RELOCK, OOS_CLEAR and THERM_WARN (R14, R191, R192, R292, R362). What the manual leaves open here
follows the model's own choices, log entry 2. -/
def Obligations.ReferenceFaults : Prop :=
  ∀ s : State,
    (∀ absent, s.clk.started = true → ∃ t, exec (.refFault absent) s = .next t
      ∧ Raised { s with clk := { s.clk with refFault := true, refSeen := true, refAbsent := absent } } 1776 t)
    ∧ (s.clk.refFault = true →
      exec .refRelock s = .next { s with clk := { s.clk with refFault := false, refAbsent := false } })
    ∧ (isFollower s = true → s.clk.oos = true → s.timeSrc.isSome = true → 1000 ≤ s.clk.streak →
      exec .oosClear s = .next { s with clk := { s.clk with oos := false, lock := true } })
    ∧ (isFollower s = false ∨ s.clk.oos = false ∨ s.timeSrc = none ∨ s.clk.streak < 1000 → exec .oosClear s = .next s)
    ∧ (s.mode.busUp = true → s.clk.started = true → ∃ t, exec .thermWarn s = .next t ∧ Raised s 1809 t)

/-- PWR_MODE and the entry to low power (R363, R364, Table 17-3). VCORE changes, wake sources and wake (R360, R361,
R365 to R369). What the manual leaves open here follows the model's own choices, log entries 2, 8, 50, 79, 80 and
81. -/
def Obligations.LowPower : Prop :=
  (∀ s : State,
    (∀ v, s.commits (.doze v) v .pwrMode 0 7 fun t => { t with pwr := { t.pwr with target := 7, waiting := true } })
    ∧ (∀ v, s.commits (.sleep v) v .pwrMode 0 8 fun t => { t with pwr := { t.pwr with target := 8, waiting := true } })
    ∧ (∀ v, s.commits (.deep v) v .pwrMode 0 9 fun t => { t with pwr := { t.pwr with target := 9, waiting := true } })
    ∧ (∀ v, s.mode = .m5 → s.commits (.cancelOrWake v) v .pwrMode 0 5 fun t =>
        { t with pwr := { t.pwr with target := 5, waiting := false } })
    ∧ (∀ v, s.mode = .m7 → s.commits (.cancelOrWake v) v .pwrMode 0 5 fun t =>
        { t with pwr := { t.pwr with target := 5, waiting := false, wakeArmed := some (t.pwr.wakeArmed.getD .pf0) } })
    ∧ (s.mode = .m5 → s.pwr.waiting = true → hartsWait s = true → s.jrn.intake = [] → s.jrn.waiting = [] →
        s.jrn.missedCount = 0 →
        ∃ t j e o q, exec .entryBegin s = .next t
          ∧ (∀ p, pinOf t p = { pinOf s p with edge := none })
          ∧ t =
          { s with jrn := j, ev := e, outs := o, pins := { s.pins with pin := q }
                   pwr := { s.pwr with waiting := false, replay := false, wakeCause := none, wakeArmed := none
                                       prevLast := s.last, entry := some (lowMode s.pwr.target), entryAt := s.clk.f1
                                       entryStep := 1 } })
    ∧ (s.pwr.waiting = false ∨ s.mode ≠ .m5 ∨ hartsWait s = false → exec .entryBegin s = .next s)
    ∧ (∀ m, s.pwr.entry = some m → s.mode = .m5 → edgeDue s = true → (s.still fun _ => True) →
        ∃ t, exec .userClockEdge s = .next t
          ∧ (s.pwr.entryStep = 1 → (s.clk.f1 + 1) % 8 ≠ 0 → t.pwr.entryStep = 1 ∧ t.mode = .m5)
          ∧ (s.pwr.entryStep = 1 → (s.clk.f1 + 1) % 8 = 0 →
            (m = .m7 → t.mode = .m7 ∧ t.last = .m5 ∧ t.pwr.entry = none ∧ t.pwr.lastLow = 7
              ∧ t.pwr.lowSince = s.clk.f1 + 1)
            ∧ (m ≠ .m7 → t.pwr.entryStep = 2 ∧ t.mode = .m5 ∧ ∀ p, userRuns t p = false))
          ∧ (s.pwr.entryStep = 2 → t.mode = .m5
            ∧ t.pwr.entryStep = if s.pwr.entryAt + 6000 ≤ s.clk.f1 + 1 then 3 else 2)
          ∧ (s.pwr.entryStep = 3 → s.clk.f1 + 1 < s.pwr.entryAt + 12000 → t.pwr.entryStep = 3 ∧ t.mode = .m5)
          ∧ (s.pwr.entryStep = 3 → s.pwr.entryAt + 12000 ≤ s.clk.f1 + 1 → t.pwr.entryStep = 4 ∧ t.mode = .m5
            ∧ t.dram.ch0.selfRefresh = true ∧ t.dram.ch1.selfRefresh = true
            ∧ ∀ g, g < 16 → t.pwr.held.getLsbD g = groupUp s g)
          ∧ (s.pwr.entryStep = 4 → s.clk.f1 + 1 < s.pwr.entryAt + 15000 → t.pwr.entryStep = 4 ∧ t.mode = .m5)
          ∧ (s.pwr.entryStep = 4 → s.pwr.entryAt + 15000 ≤ s.clk.f1 + 1 →
            (m = .m8 → t.mode = .m8 ∧ t.last = .m5 ∧ t.pwr.entry = some .m8 ∧ t.pwr.entryStep = 6
              ∧ t.pwr.avs = some ⟨500, 1, .enterM8⟩ ∧ .avsWrite 500 ∈ t.outs)
            ∧ (m = .m9 → t.mode = .m9 ∧ t.last = .m5 ∧ t.pwr.entry = none ∧ t.pwr.lastLow = 9 ∧ t.pwr.coreEn = false
              ∧ t.pwr.waiting = false ∧ CoreCleared t))))
  ∧ (∀ s : State,
    (∀ mv, s.mode = .m5 ∨ s.mode = .m7 → s.pwr.avs = none → s.pwr.entry = none → 600 ≤ mv → mv ≤ 800 → mv % 5 = 0 →
      exec (.avsSetpoint mv) s = .next
        { s with pwr := { s.pwr with avs := some ⟨mv, 1, .setpoint⟩ }, outs := s.outs ++ [.avsWrite mv] })
    ∧ (∀ c, s.pwr.avs = some c →
        (c.why = .setpoint → exec .avsVoltageChange s = .next { s with pwr := { s.pwr with avs := none, vset := c.mv } })
        ∧ (c.why = .enterM8 → exec .avsVoltageChange s = .next
            { s with pwr := { s.pwr with avs := none, entry := none, entryStep := 0, lastLow := 8, lowSince := s.clk.f1 } })
        ∧ (c.why = .wakeM8 → ∃ t, exec .avsVoltageChange s = .next t ∧ t.mode = .m5 ∧ t.last = s.mode
            ∧ t.pwr.avs = none ∧ t.pwr.vset = 700 ∧ t.clk.systime % 1000 = 0 ∧ s.clk.systime ≤ t.clk.systime
            ∧ t.clk.k = 0)
        ∧ (c.attempts < 3 → exec .avsRetry s = .next
            { s with pwr := { s.pwr with avs := some { c with attempts := c.attempts + 1 } }
                     outs := s.outs ++ [.avsWrite c.mv] })
        ∧ (3 ≤ c.attempts → c.why = .setpoint → ∃ t, exec .avsRetry s = .next t
            ∧ Raised { s with pwr := { s.pwr with avs := none, avsFail := true } } 1810 t)
        ∧ (s.mode ≠ .m9 → c.why = .wakeM8 ∨ c.why = .wakeAbort →
            ∃ t, exec .wakefail s = .next t ∧ t.pwr.rstCause = 0x8400 ∧ PorLeaves s true t))
    ∧ (s.mode = .m9 → s.pwr.coreEn = true → exec .wakefail s = .next
        { s with pwr := { s.pwr with coreEn := false, wakeArmed := none, rstCause := s.pwr.rstCause ||| 0x0400 } })
    ∧ (asleep s = true → s.pwr.wakeArmed = none →
        (∀ a, bit (pwrWake s) 15 = true → pwrWake s % 128 = a.toNat → exec (.smbusWake a) s = .next
          { s with pwr := { s.pwr with wakeArmed := some .smbus }, outs := s.outs ++ [.smbAck] })
        ∧ (∀ p, bit (pwrWake s) 14 = true → s.mode = .m7 → wakeMet s p (wakeMode s p) = true → exec (.wakePin p) s = .next
            { s with pwr := { s.pwr with wakeArmed := some .pin } })
        ∧ (∀ p m, bit (pwrWake s) 14 = true → s.mode ≠ .m7 → (p, m) ∈ s.pwr.wakePins → wakeMet s p m = true →
            exec (.wakePin p) s = .next
            { s with pwr := { s.pwr with wakeArmed := some .pin } })
        ∧ (bit (pwrWake s) 13 = true → pwrAlarm s ≠ 0 →
            (s.mode ≠ .m7 ∧ s.clk.refAbsent = false)
              ∨ (s.mode = .m7 ∧ s.pwr.lowSince + pwrAlarm s * 600000 ≤ s.clk.f1) →
            exec .alarm s = .next { s with pwr := { s.pwr with wakeArmed := some .alarm } }))
    ∧ (∀ c, s.pwr.entry = none → s.pwr.wakeArmed = some c →
        (s.mode = .m7 → s.clk.f1 % 8 = 0 → ∃ t j e o r, exec .wake s = .next t ∧ 1808 ∈ t.ev.pending ∧ t =
          { s with mode := .m5, last := .m7, jrn := j, ev := e, outs := o, runSince := r
                   pwr := { s.pwr with wakeCause := some c, wakeArmed := none, wakeDue := false } })
        ∧ (s.mode = .m8 → s.pwr.avs = none → exec .wake s = .next
            { s with pwr := { s.pwr with wakeCause := some c, wakeArmed := none, wakeDue := true
                                         avs := some ⟨700, 1, .wakeM8⟩ }
                     outs := s.outs ++ [.avsWrite 700] })
        ∧ (s.mode = .m9 → s.pwr.coreEn = false → exec .wake s = .next { s with pwr := { s.pwr with coreEn := true } })
        ∧ (s.mode = .m9 → s.pwr.coreEn = true → ∃ t, exec .wake s = .next t ∧ t.mode = .m1 ∧ t.last = .m9
            ∧ t.pwr.wakeCause = some c ∧ t.pwr.rstCause = s.pwr.rstCause ||| 0x0800 ∧ t.pwr.held = s.pwr.held
            ∧ t.pwr.padLatch = s.pwr.padLatch ∧ CoreCleared t ∧ Outlives s t))
    ∧ (∀ v val, s.commits (.pwrPadRelease v val) v .pwrPadRelease 0 val.toNat fun t =>
        { t with pwr := { t.pwr with releasing := t.pwr.releasing ||| (t.pwr.held &&& val) } })
    ∧ (edgeDue s = true → s.pwr.entry = none → (s.still fun _ => True) → ∃ t, exec .userClockEdge s = .next t
        ∧ ((s.clk.f1 + 1) % 8 = 0 → t.pwr.held = s.pwr.held &&& ~~~s.pwr.releasing ∧ t.pwr.releasing = 0
          ∧ ∀ p, s.pwr.releasing.getLsbD (p / 16) = true → tget {} t.pwr.padLatch p = {})
        ∧ ((s.clk.f1 + 1) % 8 ≠ 0 → t.pwr = s.pwr)))

/-- CFG_LDCMD and CFG_FDAT, LOAD_START, LOAD_TIMEOUT (R153, R156 to R159, R163). What the manual leaves open here
follows the model's own choices, log entries 2, 8, 45 and 46. -/
def Obligations.LoadCommands : Prop :=
  ∀ s : State,
    (s.Quiet → accepts s .side .cfgLdcmd 0 1 →
      ∃ t, exec (.startSide .side) s = .next t ∧ (loadStat t 0x14).state = 1 ∧ (loadStat t 0x14).path = 2
        ∧ t.ldr.waiting = s.ldr.waiting
            ++ [newLoad 0x14 0 ((vw s .side 0x10100 0).toNat % 4) .side [] s.clk.f1]
        ∧ { t with ldr := s.ldr } = s)
    ∧ (∀ l val, s.Quiet → s.ldr.running = some l → accepts s .side .cfgFdat 0 val →
        exec (.cfgFdatWrite .side (BitVec.ofNat 16 val)) s = .next
          { s with ldr := { s.ldr with running := some { l with
            buf := l.buf ++ [BitVec.ofNat 16 val], lastData := s.clk.f1 } } })
    ∧ (∀ l, s.ldr.running = some l → l.view = 0x14 → pathCode l.path ≠ 0 →
        s.commitsTo (.abort .side) .side .cfgLdcmd 0 2 fun t => LoadFailed s l stAborted lcAbort t)
    ∧ (∀ l, s.ldr.running = some l → pathCode l.path ≠ 0 → l.lastData + 60000000 ≤ s.clk.f1 →
        ∃ t, exec .loadTimeout s = .next t ∧ LoadFailed s l stTimeout lcAbort t)
    ∧ (∀ l rest, s.ldr.running = none → s.ldr.waiting = l :: rest → s.ldr.fallbackDue = false →
        (s.mode = .m5 ∨ s.mode = .m6 ∨ s.mode = .m7 → ∃ t, exec .loadStart s = .next t
          ∧ t.ldr.running = some { l with device := false, lastData := s.clk.f1 } ∧ t.ldr.waiting = rest
          ∧ (loadStat t l.view).state = 2 ∧ t.mode = s.mode ∧ t.fab = s.fab ∧ t.bank = s.bank)
        ∧ (s.mode = .m2 ∨ s.mode = .m4 → l.view = 0 ∨ 16 ≤ l.view → ∃ t, exec .loadStart s = .next t
          ∧ t.ldr.running = some { l with device := true, lastData := s.clk.f1 } ∧ t.ldr.waiting = rest
          ∧ (loadStat t l.view).state = 2 ∧ t.mode = .m3 ∧ t.last = s.mode ∧ t.fab.active = {} ∧ t.fab.shadow = {}
          ∧ t.bank.data = [] ∧ t.bank.chk = []))

/-- LOAD_HEADER and the packets (R143, R145 to R148, R152, R165). What the manual leaves open here follows the
model's own choices, log entries 2, 8, 44 and 107. -/
def Obligations.LoadPackets : Prop :=
  ∀ (s : State) (l : Load),
    (∀ h, s.ldr.running = some l → l.phase = .header → imgReads s l 0 32 = some (some h) →
      (headerFault s l h = none → ∃ t, exec .loadHeader s = .next t
        ∧ t.ldr.running = some { withHeader l h with phase := .journal }
        ∧ (loadStat t l.view).imgId = BitVec.ofNat 32 (wordsVal ((h.drop 2).take 2))
        ∧ (loadStat t l.view).ksel = (nthD 0 h 7).toNat % 8 ∧ (loadStat t l.view).pers = nthD 0 h 5
        ∧ (s.jrn.waiting = [] → s.jrn.intake.length < 8 → ∃ e, t.jrn.intake = s.jrn.intake ++ [e]
            ∧ e.changes = [.loadStart] ∧ e.need = 2 ∧ e.refusable = true)
        ∧ { t with ldr := s.ldr, jrn := s.jrn } = s)
      ∧ (∀ c, headerFault s l h = some c → ∃ t, exec .loadHeader s = .next t
        ∧ LoadFailed s (withHeader l h) stRefused c t))
    ∧ (∀ ws, AtPacket s l .nop 1 ws →
        exec .nop s = .next { s with ldr := { s.ldr with running := some { l with pos := l.pos + 1 } } })
    ∧ (∀ ws, AtPacket s l .fadr 3 ws → ∃ t, exec .fadr s = .next t
        ∧ t.ldr.running = some { l with pos := l.pos + 3, fadr := some ((nthD 0 ws 0).toNat * 65536 + (nthD 0 ws 1).toNat) }
        ∧ (loadStat t l.view).fadr = nthD 0 ws 0 ++ nthD 0 ws 1 ∧ { t with ldr := s.ldr } = s)
    ∧ (∀ ws u, AtPacket s l .regmask 25 ws → l.regmask = none → (∀ r ∈ maskRegions ws, regionPart s r = l.part) →
        u = setRunning s (some { l with claim := [] }) →
        (l.device = false → (groupOf s l.part l.cg).sched = none ∧ ∀ r ∈ maskRegions ws, shadowOf u r = .idle) →
        ∃ t, exec .regmask s = .next t ∧ tget [] t.ldr.regmask l.view = maskRegions ws
          ∧ t.ldr.running = some { l with claim := [], regmask := some (maskRegions ws), pos := l.pos + 25 }
          ∧ (l.device = false → ∀ r ∈ maskRegions ws, shadowOf t r = .loading)
          ∧ (∀ r, r ∉ maskRegions ws → shadowOf t r = shadowOf u r)
          ∧ t.fab.active = s.fab.active ∧ t.fab.shadow = s.fab.shadow ∧ t.bank = s.bank)
    ∧ (∀ ws rs a, AtPacket s l .frame 258 ws → l.fadr = some a → l.regmask = some rs → addressFault a = false →
        a % 0x80000000 ∉ l.written → fkRegion (a % 0x80000000) ∈ rs →
        l.pers = 0 ∨ fkRegion (a % 0x80000000) < 48 * l.pers →
        crc16 (bytesOf (ws.take 256)) = nthD 0 ws 256 → fkType (a % 0x80000000) ≠ 1 → badAddress (a % 0x80000000) = false →
        contentsValid (storeFrame (freshRegion s l (a % 0x80000000)) { l with written := sins (a % 0x80000000) l.written }
          (a % 0x80000000) (ws.take 256) (nthD 0 ws 256)) { l with written := sins (a % 0x80000000) l.written }
          (a % 0x80000000) = true →
        ∃ t, exec .frame s = .next t ∧ tget [] t.fab.shadow.frames (a % 0x80000000) = ws.take 256
          ∧ tget 0 t.fab.shadow.crcs (a % 0x80000000) = nthD 0 ws 256
          ∧ t.ldr.running = some { l with written := sins (a % 0x80000000) l.written, fadr := some (nextAddress a)
                                          pos := l.pos + 258 }
          ∧ t.fab.active = s.fab.active ∧ t.bank = s.bank)
    ∧ (∀ ws rs a, AtPacket s l .frame 258 ws → l.fadr = some a → l.regmask = some rs → addressFault a = false →
        a % 0x80000000 ∉ l.written → fkRegion (a % 0x80000000) ∈ rs →
        l.pers = 0 ∨ fkRegion (a % 0x80000000) < 48 * l.pers →
        crc16 (bytesOf (ws.take 256)) = nthD 0 ws 256 → fkType (a % 0x80000000) = 1 →
        l.device = true ∨ bankTakesFrame s (a % 0x80000000) = true → bankBusy s (frameBank (a % 0x80000000)) = false →
        ∃ t, exec .frame s = .next t
          ∧ (bankRetired s (frameBank (a % 0x80000000)) = false → ∀ i, i < 512 →
              bankByte t (bankKey (frameBank (a % 0x80000000)) (512 * fkFrame (a % 0x80000000) + i))
                = (nthD 0 (bytesOf (ws.take 256)) i, .good))
          ∧ t.ldr.running = some { l with written := sins (a % 0x80000000) l.written, fadr := some (nextAddress a)
                                          banks := sins (frameBank (a % 0x80000000)) l.banks, pos := l.pos + 258 }
          ∧ t.fab.active = s.fab.active)
    ∧ (∀ ws, AtPacket s l .endPkt 2 ws → nthD 0 ws 0 = 3 → l.regmask.isSome = true → l.pos + 2 = 32 + l.len →
        exec .endPkt s = .next { s with ldr := { s.ldr with running := some { l with phase := .checks, pos := l.pos + 2 } } })

/-- LOAD_CHECKS_DONE: a load that passes is staged or activated (R33, R140, R152, R163, R168). What the manual
leaves open here follows the model's own choices, log entries 2, 8, 44, 101 and 102. -/
def Obligations.LoadPasses : Prop :=
  ∀ (s : State) (l : Load) (ws : List Word) (rs : List Nat), s.ldr.running = some l → l.phase = .checks →
    imgReads s l 0 (imgWords l.len l.sig) = some (some ws) → imageAuthentic s l ws = true → firstMissing l = none →
    l.regmask = some rs → l.claim = [] →
    checkPlane s ((rs.filter fun r => !(regionsWritten l).contains r).foldl clearRegion (planeAfter s rs)) rs
      (configured ((rs.filter fun r => !(regionsWritten l).contains r).foldl clearRegion (planeAfter s rs)))
      l.written l.pers = none →
    ∃ t, exec .loadChecksDone s = .next t ∧ t.ldr.running = none ∧ (loadStat t l.view).state = 3
      ∧ (loadStat t l.view).status = stOk ∧ (loadStat t l.view).cause = 0
      ∧ (l.device = false → t.mode = s.mode ∧ t.fab.active = s.fab.active
          ∧ (∀ r ∈ rs, claimed s r = false → shadowOf t r = .staged l.cg) ∧ ∀ r, r ∉ rs → shadowOf t r = shadowOf s r)
      ∧ (l.device = true → t.mode = .m5 ∧ t.last = s.mode ∧ t.fab.pers = l.pers ∧ t.pwr.cfgErr = false
          ∧ (∀ k, fkRegion k ∈ rs → tget [] t.fab.active.frames k = tget [] s.fab.shadow.frames k)
          ∧ ∀ k, fkRegion k ∉ rs → tget [] t.fab.active.frames k = tget [] s.fab.active.frames k)

/-- REGISTER_WRITE, HI_WRITE, FRAMED_WRITE and CANCEL (R35, R36, R38, R40, R41, R43, R44). What the manual leaves
open here follows the model's own choices, log entries 10, 11, 12, 13 and 14. -/
def Obligations.BusWrites : Prop :=
  ∀ (s : State) (v : View), s.Quiet →
    (∀ off be (val : BitVec 32), findReg off = none → exec (.registerWrite v off be val) s = .next s)
    ∧ (∀ off r i stg be (val : BitVec 32), findReg off = some (r, i, stg) → busAborts s v off = false →
        (visible s v r i = false → exec (.registerWrite v off be val) s = .next s)
        ∧ (visible s v r i = true → (be.getLsbD 0 && be.getLsbD 1) = false →
            exec (.registerWrite v off be val) s = .next (regErr s v stInvalid))
        ∧ (visible s v r i = true → be.getLsbD 0 = true → be.getLsbD 1 = true → readOnly s v r = true →
            exec (.registerWrite v off be val) s = .next s)
        ∧ (visible s v r i = true → be.getLsbD 0 = true → be.getLsbD 1 = true → readOnly s v r = false → r.half ≠ .hi →
            writeCheck s v r i (fullValue s v r i (val.setWidth 16)) = none →
            journaling r (fullValue s v r i (val.setWidth 16)) = .none →
            exec (.registerWrite v off be val) s = .next (regApply s v r i (fullValue s v r i (val.setWidth 16)))))
    ∧ (∀ off r i stg val, findReg off = some (r, i, stg) → busAborts s v off = false → r.half = .hi → visible s v r i = true →
        readOnly s v r = false → exec (.hiWrite v off val) s = .next { s with hold := tset 0 s.hold (viewKey (viewCode v) off) val })
    ∧ (∀ reg r i off (val : Word), regMap.find? (·.reg == reg) = some r → r.cls = .rwf → off = r.off i ∨ off = r.off i + 0x8000 →
        s.commits (.framedWrite v off val) v reg i val.toNat fun t => { t with
          framed := t.framed.filter (·.off != r.off i) ++ [⟨v, r.off i, BitVec.ofNat 16 (Nat.land val.toNat r.mask)⟩] })
    ∧ s.commits (.cancel v) v .sysFwctl 0 0x4000 fun t => { t with framed := t.framed.filter (·.view != v) }

/-- A journaled register's write and its record, whatever the register (R43, R393, R394). What the manual leaves
open here follows the model's own choices, log entries 10, 13 and 15. -/
def Obligations.JournaledWrites : Prop :=
  ∀ (s : State) (v : View) (reg : Reg) (r : RegRow) (i n : Nat) (val : BitVec 32),
    regMap.find? (·.reg == reg) = some r → r.half ≠ .hi → fullValue s v r i (val.setWidth 16) = n →
    journaling r n = .write → reg ≠ .qeMigrateLo → s.takes v reg i n →
    ∃ t j, oneMore s j ∧ exec (.registerWrite v (r.off i) 0xF val) s = .next t ∧ { t with jrn := s.jrn } = s
      ∧ t.jrn.intake = [⟨{ viewRec s v 0x01 stOk (r.off i) (oldValue s v r i) n with sys := sysNow s }, 1, true, 1,
          [.reg v (r.off i) n]⟩]
      ∧ exec .journalCommit t = .next (finishWrite (regApply { s with jrn := j } v r i n) v stOk)

/-- A refused write changes nothing but SYS_REGERR, and leaves a REFUSED record where the register is journaled;
while PRT_CTL.LOCK is set every RWL register refuses with LOCKED (R39, R393, R430). REGISTER_ABORT, and a bus
access, of a register in a stopped domain: the access is dropped, SYS_REGERR tells, and the requester sees what its
kind sees (R48, R334). What the manual leaves open here follows the model's own choices, log entries 10, 15, 21, 97
and 120. -/
def Obligations.RefusedAndAbortedAccesses : Prop :=
  (∀ (s : State) (v : View) (reg : Reg) (r : RegRow) (i st : Nat) (val : BitVec 32),
    s.Quiet → regMap.find? (·.reg == reg) = some r → i < r.count → visible s v r i = true → readOnly s v r = false →
    r.half ≠ .hi → reg ≠ .dbgCapcmd → busAborts s v (r.off i) = false → writeCheck s v r i (fullValue s v r i (val.setWidth 16)) = some st →
    (r.jrn = false → exec (.registerWrite v (r.off i) 0xF val) s = .next (regErr s v st))
    ∧ (r.jrn = true → ∃ t, exec (.registerWrite v (r.off i) 0xF val) s = .next t
        ∧ { t with jrn := s.jrn } = regErr s v st
        ∧ t.jrn.intake.map (fun e => (e.record.kind, e.record.status, e.record.obj)) = [(0x03, st, r.off i)])
    ∧ (vw (regErr s v st) v 0x8 0).toNat % 256 = st % 256
    ∧ (r.cls = .rwl → locked s = true → st = stLocked ∧ (vw (regErr s v st) v 0x8 0).getLsbD 14 = true))
  ∧ (∀ (s : State) (off : Nat) (r : RegRow) (i : Nat) (stg write : Bool) (val : Word),
    s.Quiet → findReg off = some (r, i, stg) → domainStopped s r.reg.domain = true →
    (∀ v be x, visible s v r i = true → exec (.registerWrite v off be x) s = .next (regErr s v stAborted)
        ∧ (vw (regErr s v stAborted) v 0x8 0).getLsbD 15 = true
        ∧ (vw (regErr s v stAborted) v 0x8 0).toNat % 256 = stAborted)
    ∧ (∀ v, v = .pf0 ∨ (∃ n, v = .vf n) → visible s v r i = true →
        exec (.registerAbort v off false val) s = .next
          { regErr s v stAborted with outs := s.outs ++ [.completerAbort v off] }
        ∧ exec (.registerAbort v off true val) s = .next (regErr s v stAborted))
    ∧ (visible s .side r i = true → exec (.registerAbort .side off write val) s = .next
        { regErr s .side stAborted with
          side := { s.side with acc := ⟨true, write, off, if write then val else 0, stAborted, false⟩, selected := true }
          outs := s.opened.outs ++ [.misoWait, .miso (0x0D :: (if write then [] else [0, 0]))] })
    ∧ (visible s .jtag r i = true → exec (.registerAbort .jtag off write val) s = .next
        { regErr s .jtag stAborted with
          tap := { s.tap with acc := ⟨true, write, off, if write then val else 0, stAborted, false⟩ } })
    ∧ (∀ h rd a n sg, h < 4 → visible s (.hart h) r i = true → hartDoes s h (.load rd a n sg) = true →
        wordAddr a = BitVec.ofNat 32 (0x20000000 + off) → ∃ t, exec (.registerAbort (.hart h) off false val) s = .next t
        ∧ TrapTaken (regErr s (.hart h) stAborted) h false 5 a t)
    ∧ (∀ h e es, h < 4 → visible s (.hart h) r i = true → (hartOf s h).state = .run → (hartOf s h).store = e :: es →
        wordAddr e.addr = BitVec.ofNat 32 (0x20000000 + off) → ∃ t, exec (.registerAbort (.hart h) off true val) s = .next t
        ∧ TrapTaken (setHart (regErr s (.hart h) stAborted) h { hartOf s h with store := es }) h false 7 e.addr t))

/-- MAILBOX_SELECT, MAILBOX_SNAPSHOT, MAILBOX_ABORT and MBX_D7_READ (R44, R46, R47). What the manual leaves open
here follows the model's own choices, log entries 2, 27 and 97. -/
def Obligations.MailboxSnapshots : Prop :=
  ∀ (s : State) (v : View),
    (∀ lo n, n = (holding s v 0x40).toNat * 65536 + lo.toNat → s.Quiet → accepts s v .mbxSelLo 0 n →
      ∃ t, exec (.mailboxSelect v lo) s = .next t ∧ mbxOf t v = { mbxOf s v with
          valid := false, busy := true, seq := ((mbxOf s v).seq + 1) % 4, sel := BitVec.ofNat 32 n, since := s.clk.f1 }
        ∧ vw t v 0x40 0 = holding s v 0x40 ∧ vw t v 0x44 0 = lo ∧ { t with mbx := s.mbx, vregs := s.vregs } = s)
    ∧ (s.mode.busUp = true → (mbxOf s v).busy = true → mailboxStopped s v = false → readbackDeferred s v = false →
      ∃ t, exec (.mailboxSnapshot v) s = .next t ∧ (mbxOf t v).busy = false
        ∧ (mbxOf t v).status = (snapshot s v (mbxOf s v).sel.toNat).status
        ∧ (mbxOf t v).data = BitVec.ofNat 128 (snapshot s v (mbxOf s v).sel.toNat).data
        ∧ (mbxOf t v).seq = (mbxOf s v).seq
        ∧ ((mbxOf t v).valid = true ↔ (mbxOf t v).status = stOk)
        ∧ t.regs = s.regs ∧ t.vregs = s.vregs ∧ t.pregs = s.pregs ∧ t.fab = s.fab ∧ t.qe = s.qe
        ∧ { t.bank with cycle := s.bank.cycle } = s.bank)
    ∧ (s.mode.busUp = true → (mbxOf s v).busy = true → mailboxStopped s v = true → (mbxOf s v).since + 2400 ≤ s.clk.f1 →
      ∃ t, exec (.mailboxAbort v) s = .next t ∧ mbxOf t v = { mbxOf s v with
          valid := false, busy := false, status := stAborted, ftag := frameTag s, data := 0 }
        ∧ { t with mbx := s.mbx } = s)
    ∧ (mailboxStopped s v = true → exec (.mailboxSnapshot v) s = .next s)
    ∧ (mailboxStopped s v = false ∨ s.clk.f1 < (mbxOf s v).since + 2400 → exec (.mailboxAbort v) s = .next s)
    ∧ (∀ r, s.Quiet → regMap.find? (·.reg == .mbxD) = some r → visible s v r 7 = true → readsZero s v = false →
      ∃ t, exec (.mbxD7Read v) s = .next t ∧ mbxOf t v = { mbxOf s v with valid := false }
        ∧ t.outs = s.outs ++ [.readData v 0x6C (BitVec.ofNat 16 ((mbxOf s v).data.toNat / 2 ^ 112))]
        ∧ { t with mbx := s.mbx, outs := s.outs } = s)

/-- The side port: WRITE, READ, STREAM, STATUS, an OP outside Table 2-5, and SIDE_CS_N (R49, R50). What the manual
leaves open here follows the model's own choices, log entries 5, 23 and 24. -/
def Obligations.SidePortOperations : Prop :=
  (∀ (s : State) (off : Nat) (val : Word) (steps : List StreamStep), badHeader off = true →
      exec (.sideWrite off val) s = .fault .sideHeader ∧ exec (.sideRead off) s = .fault .sideHeader
        ∧ exec (.sideStream off steps) s = .fault .sideHeader)
  ∧ (∀ s : State, exec .sideCsRise s = .next { s with side := { s.side with selected := false } })
  ∧ (∀ s : State, s.Quiet → exec .sideStatus s = .next
      { s.opened with outs := s.opened.outs ++ [.miso [BitVec.ofNat 8 ((vw s .side 0x8 0).toNat)]] })
  ∧ (∀ (s : State) (op : Byte), s.Quiet → op ∉ ([0x01, 0x02, 0x04, 0x05] : List Byte) →
      exec (.sideUnknownOp op) s = .next { s.opened with outs := s.opened.outs ++ [.miso [0xFF]] })
  ∧ (∀ (s : State) (off : Nat), s.Quiet → badHeader off = false → busAborts s .side off = false →
      ∃ t, exec (.sideRead off) s = .next t
      ∧ t.side.selected = true ∧ t.side.acc = ⟨true, false, off, peek s .side off, stOk, false⟩
      ∧ t.outs.getLast? = some (.miso (BitVec.ofNat 8 stOk :: beBytes 2 (peek s .side off).toNat))
      ∧ ((∀ r i stg, findReg off = some (r, i, stg) → r.reg ∉ ([.mbxD, .pinSdat, .evtClaim] : List Reg)) →
          t.outs.dropLast = s.opened.outs ++ [.misoWait] ∧ { t with side := s.side, outs := s.outs } = s))
  ∧ (∀ (s : State) (off : Nat) (val : Word), s.Quiet → badHeader off = false →
      (∀ r i stg, findReg off = some (r, i, stg) → visible s .side r i = false) →
      exec (.sideWrite off val) s = .next
        { s with side := { s.side with selected := true, acc := ⟨true, true, off, val, stOk, false⟩ }
                 outs := s.opened.outs ++ [.misoWait, .miso [0x00]] })
  ∧ (∀ (s : State) (r : RegRow) (i st : Nat) (val : Word), s.Quiet → regMap.find? (·.reg == r.reg) = some r →
      i < r.count → visible s .side r i = true → readOnly s .side r = false → r.half = .none → r.jrn = false →
      busAborts s .side (r.off i) = false → writeCheck s .side r i val.toNat = some st → badHeader (r.off i) = false →
      exec (.sideWrite (r.off i) val) s = .next
        { regErr s .side st with side := { s.side with selected := true, acc := ⟨true, true, r.off i, val, st, false⟩ }
                                 outs := s.opened.outs ++ [.misoWait, .miso [BitVec.ofNat 8 st]] })
  ∧ (∀ (s : State) (r : RegRow) (i : Nat) (val : Word), regMap.find? (·.reg == r.reg) = some r → r.half = .none →
      journaling r val.toNat = .write → s.takes .side r.reg i val.toNat → badHeader (r.off i) = false →
      ∃ t, exec (.sideWrite (r.off i) val) s = .next t
        ∧ t.side = { s.side with selected := true, acc := ⟨true, true, r.off i, val, 0, true⟩ }
        ∧ t.outs = s.opened.outs ++ [.misoWait] ∧ t.jrn.intake.length = 1
        ∧ { t with jrn := s.jrn, side := s.side, outs := s.outs } = s
        ∧ ∃ j, oneMore s j ∧ exec .journalCommit t =
            .next (finishWrite (regApply { t with jrn := j } .side r i val.toNat) .side stOk))
  ∧ (∀ (s : State) (st : Nat), s.side.acc.inProgress = true → s.side.acc.write = true → s.side.selected = true →
      finishWrite s .side st = { s with
        side := { s.side with acc := { s.side.acc with inProgress := false, status := st } }
        outs := s.outs ++ [.miso [BitVec.ofNat 8 st]] })
  ∧ (∀ (s : State) (l : Load) (ws : List Word), s.Quiet → s.mode ≠ .m11 → s.ldr.running = some l → l.path = .side →
      ws ≠ [] → l.buf.length + ws.length ≤ 12 → exec (.sideStream 0x10010 (ws.map .word)) s = .next
        { s with side := { s.side with selected := true, buf := [], bufOff := 0x10010 }
                 outs := s.opened.outs ++ [.miso (List.replicate (2 * ws.length) 0xFF)]
                 ldr := { s.ldr with running := some { l with buf := l.buf ++ ws, lastData := s.clk.f1 } } })
  ∧ (∀ (s : State) (off : Nat) (ws : List Word), s.Quiet → badHeader off = false → findReg off = none → ws.length = 17 →
      exec (.sideStream off (ws.map .word)) s = .next
        { regErr s .side stBusy with side := { s.side with selected := true, buf := [], bufOff := off }
                                     outs := s.opened.outs ++ [.miso (List.replicate 34 0xFF)] })

/-- The JTAG instructions of Table 2-6, and register access over REGACC (R51, R52). What the manual leaves open here
follows the model's own choices, log entries 23, 25, 26 and 96. -/
def Obligations.JtagInstructions : Prop :=
  ∀ s : State,
    exec .tapReset s = .next { s with tap := { s.tap with ir := 1 } }
    ∧ (∀ cells, s.mode = .m2 ∨ s.mode = .m4 ∨ s.mode = .m10 → ∃ t x, exec (.extest cells) s = .next t
        ∧ t = { s.shifted 0 x with tap := { (s.shifted 0 x).tap with cells := t.tap.cells }, freeCtr := s.freeCtr + 1 }
        ∧ (cells = [] → t.tap.cells = s.tap.cells)
        ∧ (∀ p v e, cells = [(p, v, e)] → s.pwr.held.toNat.testBit (p / 16) = false → groupUp s (p / 16) = true →
            padDrive t p = { val := v, en := e }))
    ∧ (s.mode.busUp = true →
      (∀ cells, s.mode ≠ .m2 → s.mode ≠ .m4 → s.mode ≠ .m10 → exec (.extest cells) s = .next (s.shifted 0 0))
      ∧ (∃ x : BitVec 48, x.getLsbD 0 = true ∧ fld x.toNat 27 12 = 0x9C19 ∧ fld x.toNat 47 32 = 0
          ∧ exec .idcode s = .next (s.shifted 1 x))
      ∧ (∃ x, exec (.samplePreload []) s = .next { s.shifted 2 x with freeCtr := s.freeCtr + 1 })
      ∧ (∀ cells, ∃ t x, exec (.samplePreload cells) s = .next t
        ∧ t = { s.shifted 2 x with tap := { (s.shifted 2 x).tap with cells := t.tap.cells }, freeCtr := s.freeCtr + 1 })
      ∧ (∀ c : Byte, c ∉ ([0x00, 0x01, 0x02, 0x10] : List Byte) → exec (.bypass c) s = .next (s.shifted c.toNat 0))
      ∧ (∀ dr : BitVec 48, dr.getLsbD 46 = false ∨ s.tap.acc.inProgress = true →
          exec (.regacc dr) s = .next (s.scanned dr))
      ∧ (∀ (dr : BitVec 48) (u : State), u = s.scanned dr → u.Quiet → dr.getLsbD 46 = true → dr.getLsbD 47 = false →
          busAborts u .jtag (fld dr.toNat 43 24) = false →
          ∃ t, exec (.regacc dr) s = .next t ∧ t.tap = { u.tap with acc :=
              ⟨true, false, fld dr.toNat 43 24, peek u .jtag (fld dr.toNat 43 24), stOk, false⟩ }
            ∧ ((∀ r i stg, findReg (fld dr.toNat 43 24) = some (r, i, stg) →
                r.reg ∉ ([.mbxD, .pinSdat, .evtClaim] : List Reg)) → { t with tap := u.tap } = u))
      ∧ (∀ (dr : BitVec 48) (u : State), u = s.scanned dr → u.Quiet → dr.getLsbD 46 = true → dr.getLsbD 47 = true →
          (∀ r i stg, findReg (fld dr.toNat 43 24) = some (r, i, stg) → visible u .jtag r i = false) →
          exec (.regacc dr) s = .next { u with tap := { u.tap with acc :=
            ⟨true, true, fld dr.toNat 43 24, BitVec.ofNat 16 (fld dr.toNat 23 8), stOk, false⟩ } })
      ∧ (∀ (r : RegRow) (i : Nat) (dr : BitVec 48) (u : State), u = s.scanned dr → dr.getLsbD 46 = true →
          dr.getLsbD 47 = true → fld dr.toNat 43 24 = r.off i → regMap.find? (·.reg == r.reg) = some r → r.half = .none →
          journaling r (fld dr.toNat 23 8) = .write → u.takes .jtag r.reg i (fld dr.toNat 23 8) →
          ∃ t, exec (.regacc dr) s = .next t ∧ t.tap = { u.tap with acc :=
              ⟨true, true, r.off i, BitVec.ofNat 16 (fld dr.toNat 23 8), 0, true⟩ }
            ∧ t.jrn.intake.length = 1 ∧ { t with jrn := s.jrn, tap := u.tap } = u
            ∧ ∃ j, oneMore s j ∧ exec .journalCommit t =
                .next (finishWrite (regApply { t with jrn := j } .jtag r i (fld dr.toNat 23 8)) .jtag stOk))
      ∧ (∃ x : BitVec 48, exec .regaccCapture s = .next (s.scanned x)
          ∧ x.getLsbD 47 = s.tap.acc.write ∧ x.getLsbD 46 = s.tap.acc.started ∧ fld x.toNat 23 8 = s.tap.acc.data.toNat
          ∧ fld x.toNat 7 0 = if s.tap.acc.inProgress then 0xFF else s.tap.acc.status % 256))

/-- Port A of a memory site: ACCESS, PORT_A_READ, PORT_A_WRITE (R71, R72, R113, R115, R117, R119, R131, R319, R337,
R432). MAC captures: ACC_ADD, ACC_LOAD, ACC_CLEAR, LDK and DIRECT (R134 to R139, Table 6-5, R432). What the manual
leaves open here follows the model's own choices, log entries 34, 36 and 37. -/
def Obligations.SiteCaptures : Prop :=
  (∀ (s : State) (b : Nat), b < 1536 → siteCaptures s (b / 4) (12 + b % 4) = true →
    (∀ wide a, bankRetired s b = true → ∃ t, exec (.portARead b wide a) s = .next t
        ∧ (siteOf t b).pend = (siteOf s b).pend ++ [(s.clk.f1 + 3, ⟨0, true, false⟩)] ∧ t.bank = s.bank)
    ∧ (∀ wide a, bankRetired s b = false → bankBusy s b = true → ∃ t d, exec (.portARead b wide a) s = .next t
        ∧ (siteOf t b).pend = (siteOf s b).pend ++ [(s.clk.f1 + 3, ⟨d, true, false⟩)] ∧ t.bank = s.bank)
    ∧ (∀ wide a bs, bankRetired s b = false → bankBusy s b = false → (cycleOf s b).bWrote = [] →
        bs = bankBytes s b a (if wide then 2 else 1) → ∃ t, exec (.portARead b wide a) s = .next t
        ∧ (siteOf t b).pend = (siteOf s b).pend ++ [(s.clk.f1 + 3, ⟨BitVec.ofNat 16 (leVal (bs.map (·.2.1))),
            bs.any (·.2.2 == .ue), bs.any (·.2.2 == .cor)⟩)]
        ∧ (siteOf t b).out = (siteOf s b).out ∧ t.bank = s.bank
        ∧ t.fab.captured = sins (siteKey (b / 4) (12 + b % 4)) s.fab.captured
        ∧ ((∀ e ∈ bs, e.2.2 = .good) → { t with fab := s.fab } = s))
    ∧ (∀ wide a d, bankRetired s b = true ∨ bankBusy s b = true → exec (.portAWrite b wide a d) s =
        .next { s with fab := { s.fab with captured := sins (siteKey (b / 4) (12 + b % 4)) s.fab.captured } })
    ∧ (∀ wide a d, bankRetired s b = false → bankBusy s b = false → (cycleOf s b).bWrote = [] →
        ∃ t, exec (.portAWrite b wide a d) s = .next t
        ∧ bankByte t (bankKey b a) = (BitVec.ofNat 8 d.toNat, .good)
        ∧ (wide = true → bankByte t (bankKey b (a + 1)) = (BitVec.ofNat 8 (d.toNat / 256), .good))
        ∧ (∀ k, k ≠ bankKey b a → (wide = true → k ≠ bankKey b (a + 1)) → bankByte t k = bankByte s k)
        ∧ { t with bank := s.bank, hart0 := s.hart0, hart1 := s.hart1, hart2 := s.hart2, hart3 := s.hart3, fab := s.fab } = s
        ∧ t.fab = { s.fab with captured := sins (siteKey (b / 4) (12 + b % 4)) s.fab.captured }
        ∧ (∀ h w, h < 4 → (hartOf s h).reservation = some w →
            (hartOf t h).reservation = if (0x40000000 + bankKey b a) / 4 = w.toNat / 4
              ∨ (wide = true ∧ (0x40000000 + bankKey b (a + 1)) / 4 = w.toNat / 4) then none else some w))
    ∧ (∀ p : BitVec 48, p.getLsbD 32 = false → ∃ t, exec (.access b (some p)) s = .next t
        ∧ exec (.portARead b (p.getLsbD 31) (fld p.toNat 30 16)) s = .next t)
    ∧ (∀ p : BitVec 48, p.getLsbD 32 = true → ∃ t, exec (.access b (some p)) s = .next t
        ∧ exec (.portAWrite b (p.getLsbD 31) (fld p.toNat 30 16) (BitVec.ofNat 16 (fld p.toNat 15 0))) s = .next t)
    ∧ (∀ p : BitVec 48, sitePins s (b / 4) (12 + b % 4) = some p → p.getLsbD 33 = true →
        ∃ t, exec (.access b none) s = .next t ∧ exec (.access b (some p)) s = .next t)
    ∧ (sitePins s (b / 4) (12 + b % 4) = none → ∃ t, exec (.access b none) s = .next t
        ∧ (∀ k, k / 0x8000 ≠ b → bankByte t k = bankByte s k) ∧ t.clk = s.clk ∧ t.vregs = s.vregs ∧ t.qe = s.qe
        ∧ ((siteOf t b).pend.getLast?.map (·.1)) = some (s.clk.f1 + 3)))
  ∧ (∀ (s : State) (r tl : Nat), tl < 12 → siteCaptures s r tl = true →
    (∀ (p : BitVec 48) (m : Mac) (cfg x0 x1 n : Nat) (p0 p1 : Int), m = macOf s r tl → n = p.toNat →
        cfg = siteWord s.fab.active r tl 1 → x0 = fld n 15 0 → x1 = fld n 31 16 →
        p0 = product (bit cfg 11) (bit cfg 15) (bit cfg 14) x0 m.k0.toNat →
        p1 = product (bit cfg 10) (bit cfg 13) (bit cfg 12) x1 m.k1.toNat →
        bit n 36 = false → bit n 38 = false → bit n 39 = false →
        (∃ t, exec (.accAdd r tl 0 (some p)) s = .next t ∧ OnlyMac s r tl t
          ∧ (macOf t r tl).acc0 = BitVec.ofNat 48 (wrap 48 (m.acc0.toNat + ((if bit n 43 then -p0 else p0)
              + (if bit n 37 then (cascIn s r tl : Int) else 0)))))
        ∧ (∃ t, exec (.accAdd r tl 1 (some p)) s = .next t ∧ OnlyMac s r tl t
          ∧ (macOf t r tl).acc1 = BitVec.ofNat 48 (wrap 48 (m.acc1.toNat + if bit n 42 then -p1 else p1)))
        ∧ (∃ t, exec (.accLoad r tl 0 (some p)) s = .next t ∧ OnlyMac s r tl t
          ∧ (macOf t r tl).acc0 = BitVec.ofNat 48 (wrap 48 ((if bit n 43 then -p0 else p0)
              + (if bit n 37 then (cascIn s r tl : Int) else 0))))
        ∧ (∃ t, exec (.accLoad r tl 1 (some p)) s = .next t ∧ OnlyMac s r tl t
          ∧ (macOf t r tl).acc1 = BitVec.ofNat 48 (wrap 48 (if bit n 42 then -p1 else p1)))
        ∧ (∃ t, exec (.accClear r tl 0 (some p)) s = .next t ∧ OnlyMac s r tl t ∧ (macOf t r tl).acc0 = 0)
        ∧ (∃ t, exec (.accClear r tl 1 (some p)) s = .next t ∧ OnlyMac s r tl t ∧ (macOf t r tl).acc1 = 0)
        ∧ (∃ t, exec (.ldk r tl 0 (some p)) s = .next t ∧ OnlyMac s r tl t
          ∧ (macOf t r tl).k0 = BitVec.ofNat 16 x0 ∧ (macOf t r tl).k1 = m.k1)
        ∧ (∃ t, exec (.ldk r tl 1 (some p)) s = .next t ∧ OnlyMac s r tl t
          ∧ (macOf t r tl).k1 = BitVec.ofNat 16 x1 ∧ (macOf t r tl).k0 = m.k0)
        ∧ (fld n 47 46 = 2 → bit n 43 = false → bit n 37 = false →
          ∃ t, exec (.direct r tl (some p)) s = .next t ∧ OnlyMac s r tl t
          ∧ (macOf t r tl).acc0 = BitVec.ofNat 48 (wrap 48 (product (bit cfg 11) (bit cfg 15) (bit cfg 14) x0 x1))))
    ∧ (∀ (f : Option (BitVec 48) → Instr) (k : Nat), f = .accAdd r tl k ∨ f = .accLoad r tl k ∨ f = .accClear r tl k
          ∨ f = .ldk r tl k ∨ f = .direct r tl →
        (∀ p, sitePins s r tl = some p → ∃ t, exec (f none) s = .next t ∧ exec (f (some p)) s = .next t)
        ∧ (sitePins s r tl = none → ∃ t, exec (f none) s = .next t ∧ OnlyMac { s with freeCtr := s.freeCtr + 1 } r tl t)))

/-- Port B requests and services (R121 to R123, R126, R131, R319). What the manual leaves open here follows the
model's own choices, log entries 37, 40, 42, 43, 104 and 105. -/
def Obligations.PortBAccesses : Prop :=
  ∀ (s : State) (b : Nat),
    (∀ m p addr a acc, bankOf addr = some (b, a) →
      (∀ st, portBRefusal s b m p acc = some st → exec (.portBRequest m p addr acc) s = .next { s with
        bank := { s.bank with nextId := s.bank.nextId + 1
                              done := s.bank.done ++ [⟨s.bank.nextId, m, s.clk.f1 + 4, st, []⟩] } })
      ∧ (portBRefusal s b m p acc = none → ∃ t, exec (.portBRequest m p addr acc) s = .next t
        ∧ tget [] t.bank.waiting b = tget [] s.bank.waiting b ++ [⟨s.bank.nextId, m, p, a, acc⟩]
        ∧ (∀ c, c ≠ b → tget [] t.bank.waiting c = tget [] s.bank.waiting c)
        ∧ { t with bank := { t.bank with waiting := s.bank.waiting, nextId := s.bank.nextId } } = s)
      ∧ (bankRetired s b = true ∨ p ≠ bankPart s b ∨ bankMaster s b = 0 ∨ hasSlot s b m = false →
        portBRefusal s b m p acc = some stDenied)
      ∧ (accWrites acc = true → bankMaster s b ≠ m → portBRefusal s b m p acc = some stDenied)
      ∧ (bankRetired s b = false → p = bankPart s b → bankMaster s b = m → 2 ≤ m → bankBusy s b = true →
        portBRefusal s b m p acc = some stBusy))
    ∧ (∀ r rest, b < 1536 → (cycleOf s b).bUsed = false → (cycleOf s b).aWrote = [] → portBChoice s b = some (r, rest) →
        (∀ q ∈ tget [] s.bank.waiting b, hasSlot s b q.master = true) → portBRefusal s b r.master r.part r.acc = none →
      (∀ n, scLost s r = false → r.acc = .read n → (∀ e ∈ bankBytes s b r.addr n, e.2.2 = .good) →
        ∃ t, exec (.portBService b) s = .next t
        ∧ t.bank.done = s.bank.done ++ [⟨r.id, r.master, s.clk.f1 + 4, stOk, (bankBytes s b r.addr n).map (·.2.1)⟩]
        ∧ tget [] t.bank.waiting b = rest ∧ t.bank.data = s.bank.data ∧ t.bank.chk = s.bank.chk
        ∧ { t with bank := s.bank, hart0 := s.hart0, hart1 := s.hart1, hart2 := s.hart2, hart3 := s.hart3 } = s
        ∧ (r.master < 2 ∨ 6 ≤ r.master → ∀ h, hartOf t h = hartOf s h)
        ∧ (∀ h rd n' sg, h < 4 → r.master = 2 + h → (hartOf s h).wait = some (.load rd n' sg true r.id) →
            (hartOf t h).reservation = some (BitVec.ofNat 32 (0x40000000 + bankKey b r.addr))))
      ∧ (∀ n, scLost s r = false → r.acc = .read n → (∃ e ∈ bankBytes s b r.addr n, e.2.2 = .ue) →
        ∃ t, exec (.portBService b) s = .next t
        ∧ t.bank.done = s.bank.done ++ [⟨r.id, r.master, s.clk.f1 + 4, stUe, []⟩] ∧ t.bank.data = s.bank.data)
      ∧ (∀ ds, scLost s r = false → r.acc = .write ds → ∃ t, exec (.portBService b) s = .next t
        ∧ t.bank.done = s.bank.done ++ [⟨r.id, r.master, s.clk.f1 + 4, stOk, []⟩] ∧ tget [] t.bank.waiting b = rest
        ∧ (r.addr % 32768 + ds.length ≤ 32768 → ∀ i, i < ds.length →
            bankByte t (bankKey b (r.addr + i)) = (nthD 0 ds i, .good))
        ∧ (∀ k, (∀ i, i < ds.length → k ≠ bankKey b (r.addr + i)) → bankByte t k = bankByte s k)
        ∧ { t with bank := s.bank, hart0 := s.hart0, hart1 := s.hart1, hart2 := s.hart2, hart3 := s.hart3 } = s
        ∧ (r.master < 2 ∨ 6 ≤ r.master → ∀ h, hartOf t h = hartOf s h)
        ∧ (∀ h rd, h < 4 → r.master = 2 + h → (hartOf s h).wait = some (.sc rd r.id) → (hartOf t h).reservation = none))
      ∧ (scLost s r = true → ∃ t, exec (.portBService b) s = .next t
        ∧ t.bank.done = s.bank.done ++ [⟨r.id, r.master, s.clk.f1 + 4, stRefused, []⟩] ∧ tget [] t.bank.waiting b = rest
        ∧ t.bank.data = s.bank.data ∧ t.bank.chk = s.bank.chk)
      ∧ (∀ op v old, scLost s r = false → r.acc = .amo op v → r.addr % 4 = 0 →
          (∀ e ∈ bankBytes s b r.addr 4, e.2.2 = .good) →
          old = (bankBytes s b r.addr 4).map (·.2.1) → ∃ t, exec (.portBService b) s = .next t
        ∧ t.bank.done = s.bank.done ++ [⟨r.id, r.master, s.clk.f1 + 4, stOk, old⟩]
        ∧ (bankBytes t b r.addr 4).map (·.2.1) = leBytes 4 (amoWord op (BitVec.ofNat 32 (leVal old)) v).toNat
        ∧ (∀ k, (∀ i, i < 4 → k ≠ bankKey b (r.addr + i)) → bankByte t k = bankByte s k)))
    ∧ (b < 1536 → tget [] s.bank.waiting b = [] → exec (.portBService b) s = .next s)

/-- BANK_HANDOVER and BANK_FILL_DONE (R117, R128 to R130, Table 14-5). What the manual leaves open here follows the
model's own choices, log entries 2, 13 and 106. -/
def Obligations.BankHandover : Prop :=
  ∀ s : State,
    (∀ v b (val : Word), b < 1536 → val.getLsbD 7 = false → s.commits (.bankHandover v b val) v .bnkOwn b val.toNat fun t =>
        { t with bank := { t.bank with master := tset 0 t.bank.master b (fld val.toNat 11 8) } })
    ∧ (∀ v b (val : Word), b < 1536 → val.getLsbD 7 = true → s.commits (.bankHandover v b val) v .bnkOwn b val.toNat fun t =>
        { t with bank := { t.bank with fill := tset none t.bank.fill b (some ⟨fld val.toNat 11 8, none, t.clk.f1⟩) } })
    ∧ (∀ b, bankFill s b = none → exec (.bankFillDone b) s = .next s)
    ∧ (∀ b f, bankFill s b = some f → wipeDeferred s b f = true → exec (.bankFillDone b) s = .next s)
    ∧ (∀ b m since, bankFill s b = some ⟨m, none, since⟩ → wipeDeferred s b ⟨m, none, since⟩ = false →
        ∃ t, exec (.bankFillDone b) s = .next t
        ∧ (∀ a, bankByte t (bankKey b a) = (0, .ue)) ∧ (∀ k, k / 0x8000 ≠ b → bankByte t k = bankByte s k)
        ∧ bankBusy t b = false ∧ bankMaster t b = m ∧ { t with bank := s.bank } = s)
    ∧ (∀ b m p since, bankFill s b = some ⟨m, some p, since⟩ → wipeDeferred s b ⟨m, some p, since⟩ = false →
        ∃ t, exec (.bankFillDone b) s = .next t
        ∧ (∀ a, bankByte t (bankKey b a) = (0, .ue)) ∧ (∀ k, k / 0x8000 ≠ b → bankByte t k = bankByte s k)
        ∧ bankBusy t b = false ∧ bankMaster t b = m ∧ bankTdm t b = 0 ∧ bankPart t b = regionPart s (b / 4)
        ∧ { t with bank := s.bank, jrn := s.jrn, regs := s.regs } = s)

/-- PRT_CTL_LOCK, PRT_RGN_WRITE, BRG_GATE_WRITE and FSP_OWNER_WRITE (R22, R23, R39, R90, R130, R431). BNK_RETIRE,
MEM_RETIRE, MEM_LOGPOP and QUOTA_COMMIT (R317, R319, R320, R419). What the manual leaves open here follows the
model's own choices, log entries 13 and 90. -/
def Obligations.PartitionRegistersAndRetirement : Prop :=
  (∀ (s : State) (v : View) (val : Word),
    (s.commits (.prtCtlLock v) v .prtCtl 0 0x8000 fun t => { t with regs := tset 0 t.regs 0x20000 0x8000 })
    ∧ (s.takes v .prtCtl 0 0x8000 → locked s = false)
    ∧ (∀ k, k < 96 → s.commitsTo (.prtRgnWrite v k val) v .prtRgn k val.toNat fun u =>
        (∀ j, j < 4 → regionPart u (4 * k + j) = fld val.toNat (4 * j + 3) (4 * j))
          ∧ (∀ r, r / 4 ≠ k → regionPart u r = regionPart s r)
          ∧ (∀ b, b / 16 = k → regionPart u (b / 4) ≠ regionPart s (b / 4) →
              bankFill u b = some ⟨0, some (regionPart s (b / 4)), s.clk.f1⟩ ∧ bankPart u b = regionPart s (b / 4))
          ∧ (∀ b, b / 16 ≠ k ∨ regionPart u (b / 4) = regionPart s (b / 4) → bankFill u b = bankFill s b)
          ∧ { u with regs := s.regs, jrn := s.jrn, bank := { u.bank with fill := s.bank.fill } } = s)
    ∧ (∀ k, s.takes v .prtRgn k val.toNat → ∀ j, j < 4 → fld val.toNat (4 * j + 3) (4 * j) ≠ regionPart s (4 * k + j) →
        regionLoaded s (4 * k + j) = false)
    ∧ (∀ k, k < 64 → s.commits (.brgGateWrite v k val) v .brgGate k val.toNat fun t =>
        { t with regs := tset 0xFFFF t.regs (0x21000 + k * 4) val })
    ∧ (∀ k, k < 64 → s.commitsTo (.fspOwnerWrite v k val) v .qeFspown k val.toNat fun u =>
        (∀ j, j < 4 → fspPart u (4 * k + j) = fld val.toNat (4 * j + 3) (4 * j))
          ∧ (∀ f, f / 4 ≠ k → fspPart u f = fspPart s f) ∧ { u with regs := s.regs, jrn := s.jrn } = s))
  ∧ (∀ (s : State) (v : View) (val : Word),
    (s.commits (.bnkRetire v val) v .bnkRetire 0 val.toNat fun t =>
        { t with bank := { t.bank with retired := sins (val.toNat % 2048) t.bank.retired } })
    ∧ (∀ n page, n = (holding s v 0x80500).toNat * 65536 + val.toNat → page = n % 0x4000000 →
      (page ∉ s.dram.retiredPages → s.commits (.memRetire v val) v .memRetireLo 0 n fun t =>
          { t with dram := { t.dram with retiredPages := t.dram.retiredPages ++ [page] } })
      ∧ (page ∈ s.dram.retiredPages → s.commits (.memRetire v val) v .memRetireLo 0 n fun t => t)
      ∧ (s.takes v .memRetireLo 0 n → windowPresent s (page / 0x40000) = true))
    ∧ (∀ p n, p < 16 → n = (holding s v (0x90000 + 8 * p)).toNat * 65536 + val.toNat →
      (s.commitsTo (.quotaCommit v p val) v .flsUqLo p n fun u =>
        quotaOf u p = (n / 65536 % 2048, n % 4096) ∧ (∀ q, q < 16 → q ≠ p → quotaOf u q = quotaOf s q)
          ∧ (∀ k, n / 65536 % 2048 ≤ k → k < n / 65536 % 2048 + n % 4096 → tget 0 u.flash.lastOwner k = p)
          ∧ (∀ k, n / 65536 % 2048 ≤ k → k < n / 65536 % 2048 + n % 4096 → tget 0 s.flash.lastOwner k ≠ p →
              badBlock s (0xB00 + k) = false → k ∈ u.flash.pendingBlocks)
          ∧ (s.flash.pendingBlocks = [] →
              (∀ k, n / 65536 % 2048 ≤ k → k < n / 65536 % 2048 + n % 4096 → tget 0 s.flash.lastOwner k = p) →
              u.flash.op = s.flash.op ∧ u.flash.data = s.flash.data))
      ∧ (s.takes v .flsUqLo p n → n % 4096 ≠ 0 → n / 65536 % 2048 + n % 4096 ≤ 2048 ∧
          ∀ q, q < 16 → q ≠ p → (quotaOf s q).2 ≠ 0 → ¬ (n / 65536 % 2048 < (quotaOf s q).1 + (quotaOf s q).2
            ∧ (quotaOf s q).1 < n / 65536 % 2048 + n % 4096)))
    ∧ (s.Quiet → accepts s v .memLogpop 0 val.toNat → exec (.memLogpop v val) s = .next { s with
        dram := { s.dram with log := tset [] s.dram.log (val.toNat % 4) ((tget [] s.dram.log (val.toNat % 4)).drop 1) } }))

/-- PWR_PRST: what a partition reset leaves (R41, R172, R371). What the manual leaves open here follows the model's
own choices, log entries 8 and 83. -/
def Obligations.PartitionReset : Prop :=
  ∀ (s : State) (v : View) (val : Word) (p : Nat), p = viewPart s v →
    (val.getLsbD 0 = true → s.commitsTo (.pwrPrst v val) v .pwrPrst 0 val.toNat fun u =>
        (∀ h, h < 4 → hartPart s h = p → (hartOf u h).pc = bootAddr s h ∧ (hartOf u h).store = []
          ∧ (hartOf u h).reservation = none
          ∧ (hartOf u h).state = if bit (hrtCtl s h) 15 && enabled s p then .run else .off)
        ∧ (∀ h, h < 4 → hartPart s h ≠ p → hartOf u h = hartOf s h)
        ∧ (∀ x ∈ u.qe.xfers, x.sub.part ≠ p)
        ∧ (∀ w ∈ u.framed, viewPart s w.view ≠ p) ∧ (∀ w ∈ s.framed, viewPart s w.view ≠ p → w ∈ u.framed)
        ∧ (∀ cg, cg < 4 → (groupOf u p cg).sched = none)
        ∧ (∀ g, ringPart g = p → ringOf u g = {}) ∧ 1600 + p ∈ u.ev.pending
        ∧ u.clk = s.clk ∧ u.alm.entries = s.alm.entries ∧ u.dram.data = s.dram.data
        ∧ (s.ldr.running = none → u.fab.active = s.fab.active ∧ u.mode = s.mode
          ∧ (∀ r ∈ configured s.fab.active, regionPart s r = p → ∀ k, k / 8192 = r →
              tget false u.fab.ff k = (valOnes s.fab.active r).contains k)
          ∧ (∀ k, regionPart s (k / 8192) ≠ p → tget false u.fab.ff k = tget false s.fab.ff k)))
    ∧ (val.getLsbD 0 = false → s.commits (.pwrPrst v val) v .pwrPrst 0 val.toNat fun t => t)
    ∧ (s.takes v .pwrPrst 0 val.toNat → val.getLsbD 0 = true → s.pwr.entry = none)

/-- SWAP: CFG_SWPCMD or a SWAP descriptor, and the fate of its record (R168 to R171, R177, R396, Table 8-3).
SWAP_CANCEL and CLEAR (R172, R177). What the manual leaves open here follows the model's own choices, log entries 2,
48 and 49. -/
def Obligations.SwapRequests : Prop :=
  (∀ s : State,
    (∀ v (val : Word) p a, s.Quiet → fld val.toNat 15 14 = 1 → accepts s v .cfgSwpcmd 0 val.toNat →
      p = viewPart s v → a = swpcmdAsk s v val.toNat →
      (∀ c, swapCheck s p a = .inl c → ∃ t, exec (.swap (.reg v val)) s = .next t ∧ (groupOf t p a.cg).cause = c
        ∧ (groupOf t p a.cg).sched = (groupOf s p a.cg).sched ∧ 1753 ∈ t.ev.pending ∧ t.fab = s.fab ∧ t.jrn = s.jrn)
      ∧ (∀ b, swapCheck s p a = .inr b → ∃ t e f, exec (.swap (.reg v val)) s = .next t
        ∧ (groupOf t p a.cg).inJournal = true ∧ t.jrn.intake = [e] ∧ e.record.kind = 0x06 ∧ e.need = 2
        ∧ e.changes = [.swap p a.cg a.keep f b none (some v)] ∧ { t with jrn := s.jrn, swp := s.swp } = s))
    ∧ (∀ g d rest a, s.offers g d rest → descGood d = true → dOp d = 4 → fld (dBytes d 4 1) 1 0 = 1 →
      a = (⟨1, fld (dBytes d 4 1) 3 2, bit (dBytes d 4 1) 4, bit (dBytes d 4 1) 5, dBytes d 8 4, some (g, dTag d), none⟩ : SwapAsk) →
      (∀ c, swapCheck s (ringPart g) a = .inl c → ∃ t, exec (.swap (.desc g)) s = .next t
        ∧ (groupOf t (ringPart g) a.cg).cause = c ∧ (groupOf t (ringPart g) a.cg).sched = (groupOf s (ringPart g) a.cg).sched
        ∧ t.host.cpl = s.host.cpl ++ [doneCpl g d stRefused c (askedFrame s a)] ∧ 1753 ∈ t.ev.pending ∧ t.fab = s.fab)
      ∧ (∀ b, swapCheck s (ringPart g) a = .inr b → ∃ t, exec (.swap (.desc g)) s = .next t
        ∧ (groupOf t (ringPart g) a.cg).inJournal = true ∧ t.host.cpl = s.host.cpl ∧ t.fab = s.fab))
    ∧ (∀ e p cg keep f b r v, writerRuns s = true → s.jrn.intake = [e] → s.jrn.waiting = [] → s.jrn.missedCount = 0 →
      e.refusable = true → e.need = 2 → e.changes = [.swap p cg keep f b r v] →
      (sinkOn s = false ∨ shareUsed s e.record.part + 2 ≤ jrnShare s e.record.part → ∃ t, exec .journalCommit s = .next t
        ∧ (groupOf t p cg).sched = some ⟨keep, f, b, r, false⟩ ∧ (groupOf t p cg).inJournal = false ∧ t.fab = s.fab
        ∧ ∀ q ∈ affectedQueues s p cg, (queueOf t q).old =
            some ⟨true, ((queueOf s q).epoch + 1) % 256, qEgress (qcfg s q), b⟩)
      ∧ (sinkOn s = true → jrnShare s e.record.part < shareUsed s e.record.part + 2 → ∃ t, exec .journalCommit s = .next t
        ∧ (groupOf t p cg).sched = (groupOf s p cg).sched ∧ (groupOf t p cg).cause = swJournal
        ∧ (groupOf t p cg).inJournal = false ∧ 1753 ∈ t.ev.pending ∧ t.fab = s.fab ∧ t.qe = s.qe)))
  ∧ (∀ s : State,
    (∀ v (val : Word) p cg, fld val.toNat 15 14 = 2 → p = viewPart s v → cg = val.toNat % 4 →
      s.commitsTo (.swapCancel (.reg v val)) v .cfgSwpcmd 0 val.toNat fun u =>
        (groupOf u p cg).sched = none ∧ (groupOf u p cg).cause = swCancelled ∧ 1753 ∈ u.ev.pending ∧ u.fab = s.fab
          ∧ u.jrn.intake.map (·.record.kind) = [0x07])
    ∧ (∀ g d rest p cg, s.offers g d rest → descGood d = true → dOp d = 4 → fld (dBytes d 4 1) 1 0 = 2 → p = ringPart g →
      cg = fld (dBytes d 4 1) 3 2 →
      (swapCancellable s p cg = true → ∃ t, exec (.swapCancel (.desc g)) s = .next t ∧ (groupOf t p cg).sched = none
        ∧ t.host.cpl.getLast? = some (doneCpl g d stOk 0 0) ∧ t.fab = s.fab)
      ∧ (swapCancellable s p cg = false → exec (.swapCancel (.desc g)) s = .next (s.doneWith g d rest stRefused 0 0)))
    ∧ (∀ v (val : Word) p cg, fld val.toNat 15 14 = 3 → p = viewPart s v → cg = val.toNat % 4 →
      s.commitsTo (.clear (.reg v val)) v .cfgSwpcmd 0 val.toNat fun u =>
        (∀ r ∈ groupRegions s p cg, tget .idle u.fab.shadowState r = .idle
          ∧ ∀ k, fkRegion k = r → tget [] u.fab.shadow.frames k = tget [] s.fab.active.frames k)
        ∧ (∀ b ∈ groupBanks s p cg, ∀ a, bankByte u (bankKey b a) = (0, .ue)) ∧ u.fab.active = s.fab.active)
    ∧ (∀ g d rest p cg, s.offers g d rest → descGood d = true → dOp d = 4 → fld (dBytes d 4 1) 1 0 = 3 → p = ringPart g →
      cg = fld (dBytes d 4 1) 3 2 →
      (clearRefusal s p cg = none → ∃ t, exec (.clear (.desc g)) s = .next t
        ∧ (∀ r ∈ groupRegions s p cg, tget .idle t.fab.shadowState r = .idle
          ∧ ∀ k, fkRegion k = r → tget [] t.fab.shadow.frames k = tget [] s.fab.active.frames k)
        ∧ (∀ b ∈ groupBanks s p cg, ∀ a, bankByte t (bankKey b a) = (0, .ue))
        ∧ t.host.cpl = s.host.cpl ++ [doneCpl g d stOk 0 0] ∧ t.fab.active = s.fab.active)
      ∧ (∀ st, clearRefusal s p cg = some st → exec (.clear (.desc g)) s = .next (s.doneWith g d rest st 0 0))))

/-- SWAP_EDGE and DRAIN_DEADLINE (R173, R174, R176, R179, Table 8-3, Table 8-4). CONFIG_SCRUB_READ: which frame is
read and when, and what its errors lead to (R181 to R183). What the manual leaves open here follows the model's own
choices, log entries 2 and 8. -/
def Obligations.SwapEdges : Prop :=
  (∀ s : State,
    (∀ p cg q, (groupOf s p cg).sched = some q → swapEdgeDue s q = true →
      (userRuns s p = true → s.pwr.entry = none → ∃ t, exec (.swapEdge p cg) s = .next t
        ∧ (groupOf t p cg).sched = none ∧ (groupOf t p cg).cause = 0 ∧ 1752 ∈ t.ev.pending
        ∧ (∀ k, fkRegion k ∈ groupRegions s p cg → tget [] t.fab.active.frames k = tget [] s.fab.shadow.frames k)
        ∧ (∀ k, fkRegion k ∉ groupRegions s p cg → tget [] t.fab.active.frames k = tget [] s.fab.active.frames k)
        ∧ (∀ r ∈ groupRegions s p cg, tget .idle t.fab.shadowState r = .idle)
        ∧ (∀ r, r ∉ groupRegions s p cg → tget .idle t.fab.shadowState r = tget .idle s.fab.shadowState r)
        ∧ t.fab.shadow = s.fab.shadow
        ∧ (∀ r ∈ groupRegions s p cg, q.keep = true → blank s.fab.active r = false →
            (∃ f, fkRegion f = r ∧ tget [] s.fab.shadow.frames f ≠ []) → ∀ k, k / 8192 = r → tget false t.fab.ff k = tget false s.fab.ff k)
        ∧ (∀ k, k / 8192 ∉ groupRegions s p cg → tget false t.fab.ff k = tget false s.fab.ff k))
      ∧ (userRuns s p = false ∨ s.pwr.entry.isSome = true → ∃ t, exec (.swapEdge p cg) s = .next t
        ∧ (groupOf t p cg).sched = none ∧ (groupOf t p cg).cause = swFrozen ∧ 1753 ∈ t.ev.pending ∧ t.fab = s.fab))
    ∧ (∀ p cg, (∀ q, (groupOf s p cg).sched = some q → swapEdgeDue s q = false) → exec (.swapEdge p cg) s = .next s)
    ∧ (∀ q o, (queueOf s q).old = some o → o.pending = false → o.deadline ≤ sysNow s →
      ∃ t, exec (.drainDeadline q) s = .next t ∧ (queueOf t q).old = none ∧ 1568 + qidPart s q ∈ t.ev.pending
        ∧ (∀ x ∈ t.qe.xfers, ∀ l ∈ x.legs, l.qid = q → l.epoch = o.epoch → l.left = 0)
        ∧ (∀ q', q' ≠ q → queueOf t q' = queueOf s q') ∧ t.fab = s.fab ∧ t.bank = s.bank ∧ t.regs = s.regs))
  ∧ (∀ (s : State) (r k : Nat) (upset su bad : List Nat),
    bit (dev s 0x10120 0x800C).toNat 15 = true → s.clk.started = true → s.mode.busUp = true →
    s.swp.scrubAt + scrubPeriod s ≤ s.clk.f1 →
    scrubRegion s (s.swp.scrubPos / 256) = some r → r = s.swp.scrubPos / 256 →
    s.swp.scrubPos % 256 < (scrubKeys r).length → k = nthD 0 (scrubKeys r) (s.swp.scrubPos % 256) → fkRegion k = r →
    swapNear s r = false → frozen s (regionPart s r) = false →
    bad = upset.foldl (fun l b => sins b l) (tget [] s.fab.unrep k) →
    (bad = [] → frameGood s.fab.active k = true →
      (shadowOf s r ≠ .idle ∨ (su = [] ∧ frameWords s.fab.shadow k = frameWords s.fab.active k) →
        ∃ n, exec (.configScrubRead upset su) s = .next { s with swp := { s.swp with scrubPos := n, scrubAt := s.clk.f1 } })
      ∧ (shadowOf s r = .idle → (su = [] ∧ frameWords s.fab.shadow k ≠ frameWords s.fab.active k)
          ∨ ((∃ b, su = [b] ∧ b < 4096) ∧ frameWords s.fab.shadow k = frameWords s.fab.active k) →
        ∃ t, exec (.configScrubRead upset su) s = .next t
        ∧ tget [] t.fab.shadow.frames k = tget [] s.fab.active.frames k
        ∧ (∀ j, j ≠ k → tget [] t.fab.shadow.frames j = tget [] s.fab.shadow.frames j)
        ∧ t.fab.active = s.fab.active ∧ t.swp.repairs = s.swp.repairs + 1 ∧ 1754 ∈ t.ev.pending))
    ∧ (su = [] → crc16 (bytesOf (flipBits (frameWords s.fab.active k) bad)) ≠ tget 0 s.fab.active.crcs k →
      (shadowOf s r = .idle → frameGood s.fab.shadow k = true → ∃ t, exec (.configScrubRead upset su) s = .next t
        ∧ tget [] t.fab.active.frames k = tget [] s.fab.shadow.frames k
        ∧ (∀ j, j ≠ k → tget [] t.fab.active.frames j = tget [] s.fab.active.frames j) ∧ tget [] t.fab.unrep k = []
        ∧ 1754 ∈ t.ev.pending ∧ t.swp.repairs = s.swp.repairs + 1 ∧ t.fab.ff = s.fab.ff ∧ t.fab.shadow = s.fab.shadow)
      ∧ (shadowOf s r ≠ .idle ∨ frameGood s.fab.shadow k = false → tget 0 s.fab.fromSlot r = 0 →
        ∃ t, exec (.configScrubRead upset su) s = .next t
        ∧ tget [] t.fab.unrep k = (if bad = [] then upto 0 4096 else bad) ∧ 1755 ∈ t.ev.pending
        ∧ t.fab.active = s.fab.active ∧ t.fab.shadow = s.fab.shadow ∧ t.swp.repairs = s.swp.repairs)))

/-- SLOT_EDGE: SYSTIME, and the length of the slot that begins, which at a frame boundary follows its three steps
(R185, R187, R188, R190, R193, R196, R292). FRAME_BOUNDARY: latches, framed writes, flips and swaps, in this order,
and its events (R41, R189, R196, R197). What the manual leaves open here follows the model's own choices, log
entries 2, 4, 8, 51 and 115. -/
def Obligations.SlotsAndFrames : Prop :=
  (∀ s : State,
    (slotDue s = true → ∃ t, exec .slotEdge s = .next t ∧ t.clk.k = 0 ∧ t.clk.ldsec = none
      ∧ (∀ n, s.clk.ldsec = some n → t.clk.systime = n * 1000000000 % 2 ^ 64)
      ∧ (s.clk.ldsec = none → isFollower s = false ∨ runActive s = true → t.clk.systime = (s.clk.systime + 1000) % 2 ^ 64)
      ∧ (∀ k sys, s.clk.ldsec = none → isFollower s = true → runActive s = false → s.timeSrc = some k →
          (linkOf s k).slotSys = some sys → t.clk.systime = (sys + 1000) % 2 ^ 64)
      ∧ (t.clk.boundaryDue = true ↔ t.clk.systime % (flen s * 1000) = 0)
      ∧ (t.clk.boundaryDue = true → t.clk.slotLen = s.clk.slotLen)
      ∧ (t.clk.boundaryDue = false → isFollower s = false ∨ epsilon s = none → t.clk.slotLen = 600)
      ∧ (∀ e, t.clk.boundaryDue = false → isFollower s = true → epsilon s = some e →
          t.clk.slotLen = if e ≤ -834 then 601 else if 834 ≤ e then 599 else 600)
      ∧ t.regs = s.regs ∧ t.vregs = s.vregs ∧ t.fab = s.fab ∧ t.framed = s.framed ∧ t.mode = s.mode ∧ t.jrn = s.jrn
      ∧ t.bank = s.bank ∧ t.clk.f1 = s.clk.f1)
    ∧ (slotDue s = false → exec .slotEdge s = .next s))
  ∧ (∀ s : State,
    (s.clk.boundaryDue = true → ∃ t, exec .frameBoundary s = .next t ∧ t.clk.boundaryDue = false ∧ t.framed = []
      ∧ t.clk.systime = s.clk.systime ∧ t.clk.k = s.clk.k ∧ t.clk.f1 = s.clk.f1
      ∧ (isFollower t = false → t.clk.slotLen = 600 ∧ t.clk.oos = false ∧ t.clk.lock = false) ∧ 1777 ∈ t.ev.pending
      ∧ (frameRaw t t.clk.systime % hlen t = 0 → 1778 ∈ t.ev.pending)
      ∧ ((∀ e ∈ s.qe.queues, ∀ e' ∈ s.qe.queues, e.1 = e'.1 → e = e') → ∀ q, (queueOf t q).lat = (queueOf s q).cnt)
      ∧ t.jrn.lat = s.jrn.live ∧ t.clk.longLat = s.clk.longLive ∧ t.clk.shortLat = s.clk.shortLive
      ∧ t.bank.conflictLat = s.bank.conflict ∧ t.bank.conflict = [] ∧ t.dram.errLat = s.dram.errCnt
      ∧ (∀ w, s.framed = [w] → w.off = 0x50000 → timCtl t = w.val.toNat)
      ∧ (s.framed = [] → (∀ k, k < 8 → (linkOf s k).upAfter = none) → t.regs = s.regs ∧ t.vregs = s.vregs)
      ∧ (∀ p f, p < 16 → s.framed = [] → runActive s = true → (almOf s p).flip = some f →
          f.boundary = some s.clk.systime → (almOf t p).page = 1 - (almOf s p).page ∧ (almOf t p).flip = none
            ∧ 1779 ∈ t.ev.pending)
      ∧ (∀ w b, s.framed = [w] → b < 1536 → w.off = 0x32000 + 4 * b → bankTdm t b = w.val.toNat)
      ∧ (∀ p cg q, (groupOf s p cg).sched = some q → q.boundary ≤ s.clk.systime → (∀ e ∈ s.swp.groups, ∀ e' ∈ s.swp.groups,
          e.1 = e'.1 → e = e') → (groupOf t p cg).sched = some { q with released := true })
      ∧ t.fab = s.fab ∧ t.bank.data = s.bank.data ∧ t.mode = s.mode)
    ∧ (s.clk.boundaryDue = false → exec .frameBoundary s = .next s))

/-- SYSTIME_LOAD, and the time configuration registers TIM_CTL, TIM_FLEN, TIM_HLEN, TIM_ARANGE (R190, R194, R198,
R199). What the manual leaves open here follows the model's own choices, log entries 13 and 52. -/
def Obligations.TimeRegisters : Prop :=
  ∀ (s : State) (v : View) (val : Word),
    (∀ n, n = (holding s v 0x50010).toNat * 65536 + val.toNat → s.commits (.systimeLoad v val) v .timLdsecLo 0 n fun t =>
        { t with clk := { t.clk with ldsec := some n } })
    ∧ (s.commits (.timCtlWrite v val) v .timCtl 0 val.toNat fun t => { t with
        framed := t.framed.filter (·.off != 0x50000) ++ [⟨v, 0x50000, val &&& 0xE000⟩] })
    ∧ (s.commitsTo (.timFlenWrite v val) v .timFlen 0 val.toNat fun t => flen t = val.toNat ∧ t.clk = s.clk
        ∧ (∀ p, p < 16 → activeEntries t p = []) ∧ t.fab = s.fab ∧ t.qe = s.qe)
    ∧ (s.commitsTo (.timHlenWrite v val) v .timHlen 0 val.toNat fun t => hlen t = val.toNat % 4096 + 1 ∧ t.clk = s.clk
        ∧ (∀ p, p < 16 → activeEntries t p = []) ∧ t.fab = s.fab ∧ t.qe = s.qe)
    ∧ (∀ p, p < 16 → s.commitsTo (.timArangeWrite v p val) v .timArange p val.toNat fun t =>
        arange t p = (fld val.toNat 14 8 * 2048, fld val.toNat 7 0 * 2048) ∧ (∀ q, q ≠ p → arange t q = arange s q)
          ∧ (∀ i page, i < pageSize → page < 2 → entryOwnerOf s i = entryOwnerOf t i →
              tget 0 t.alm.entries (page * pageSize + i) = tget 0 s.alm.entries (page * pageSize + i))
          ∧ (∀ i page, i < pageSize → page < 2 → entryOwnerOf s i ≠ entryOwnerOf t i →
              tget 0 t.alm.entries (page * pageSize + i) = 0) ∧ t.clk = s.clk)
    ∧ (s.takes v .timFlen 0 val.toNat → val.toNat ≠ 0 ∧ runActive s = false)
    ∧ (s.takes v .timLdsecLo 0 val.toNat → runAny s = false)

/-- ALMANAC_ENTRY_WRITE, AFILE and AFILE_DONE, COPY_PAGE and PAGE_COPY_DONE (R206 to R208). FLIP, FLIP_CHECK_DONE
and FLIP_CANCEL (R195, R209, R210, Table 9-5). What the manual leaves open here follows the model's own choices, log
entries 2, 8 and 53. -/
def Obligations.AlmanacPages : Prop :=
  (∀ s : State,
    (∀ v (lo : Word) n p, n = (holding s v 0x50620).toNat * 65536 + lo.toNat → p = viewPart s v →
      s.commitsTo (.almanacEntryWrite v lo) v .timAidxLo 0 n fun u =>
        rawEntry u p (1 - (almOf s p).page) (n % 0x40000)
            = BitVec.ofNat 128 (wordsVal ((List.range 8).map fun k => vw s v (0x50600 + 4 * k) 0))
          ∧ (∀ k, k ≠ (1 - (almOf s p).page) * pageSize + (arange s p).1 + n % 0x40000 →
              tget 0 u.alm.entries k = tget 0 s.alm.entries k)
          ∧ { u with jrn := s.jrn, alm := { u.alm with entries := s.alm.entries } } = s)
    ∧ (∀ g d rest p, s.offers g d rest → descGood d = true → dOp d = 5 → p = ringPart g →
      (almBusy s p = true → exec (.afile g) s = .next (s.doneWith g d rest stBusy 0 0))
      ∧ (almBusy s p = false → dBytes d 4 4 ≠ 0 → ∃ t, exec (.afile g) s = .next t
        ∧ (almOf t p).busy = some (.bulk g (dTag d) (dBytes d 24 8) (dBytes d 4 4) none 0 false)
        ∧ t.host.reads = s.host.reads ++ [⟨s.host.nextRead, .schedule p, dBytes d 24 8, dBytes d 4 4, []⟩]
        ∧ t.host.cpl = s.host.cpl ∧ t.alm.entries = s.alm.entries ∧ { t with host := s.host, alm := s.alm } = s)
      ∧ (almBusy s p = false → dBytes d 4 4 = 0 → ∃ t, exec (.afile g) s = .next t ∧ (almOf t p).busy = none
        ∧ t.host.cpl = s.host.cpl ++ [doneCpl g d stRefused 0 0] ∧ t.alm.entries = s.alm.entries))
    ∧ (∀ p g tag a n es crc, g < deadRing → (almOf s p).busy = some (.bulk g tag a n (some es) crc true) →
      ∃ t, exec (.afileDone p) s = .next t ∧ (almOf t p).busy = none ∧ (almOf t p).page = (almOf s p).page
        ∧ (∀ i, i < es.length → rawEntry t p (1 - (almOf s p).page) i = nthD 0 es i)
        ∧ (∀ i, es.length ≤ i → i < (arange s p).2 → rawEntry t p (1 - (almOf s p).page) i = 0)
        ∧ t.host.cpl = s.host.cpl ++ [⟨g, kDone, stOk, 0, tag, crc, 0, 1, [], [], none⟩]
        ∧ { t with host := s.host, alm := s.alm } = s)
    ∧ (∀ v (val : Word) p, fld val.toNat 15 14 = 3 → p = viewPart s v →
      s.commits (.copyPage (.reg v val)) v .timPgcmd 0 val.toNat fun t =>
        { t with alm := { t.alm with parts := tmod {} t.alm.parts p fun a => { a with busy := some (.copy none) } } })
    ∧ (∀ g d rest p, s.offers g d rest → descGood d = true → dOp d = 6 → fld (dBytes d 4 1) 1 0 = 3 → p = ringPart g →
      (almBusy s p = true → exec (.copyPage (.desc g)) s = .next (s.doneWith g d rest stBusy pfBusy 0))
      ∧ (almBusy s p = false → exec (.copyPage (.desc g)) s = .next { s.took g rest with alm := { s.alm with
          parts := tmod {} s.alm.parts p fun a => { a with busy := some (.copy (some (g, dTag d))) } } }))
    ∧ (∀ p r, (almOf s p).busy = some (.copy r) → ∃ t, exec (.pageCopyDone p) s = .next t ∧ (almOf t p).busy = none
        ∧ (∀ i, i < (arange s p).2 → rawEntry t p (1 - (almOf s p).page) i = rawEntry s p (almOf s p).page i)
        ∧ (∀ g tag, r = some (g, tag) → g < deadRing →
            t.host.cpl = s.host.cpl ++ [⟨g, kDone, stOk, 0, tag, 0, 0, 1, [], [], none⟩])
        ∧ (r = none → t.host = s.host) ∧ { t with host := s.host, alm := s.alm } = s))
  ∧ (∀ s : State,
    (∀ v (val : Word) p frame, s.Quiet → fld val.toNat 15 14 = 1 → accepts s v .timPgcmd 0 val.toNat → p = viewPart s v →
      frame = (vw s v 0x50504 0).toNat * 65536 + (vw s v 0x50508 0).toNat →
      (almBusy s p = false → exec (.flip (.reg v val)) s = .next { s with alm := { s.alm with parts :=
          (tmod {} s.alm.parts p fun a => { a with flip := some ⟨bit val.toNat 13, frame, none, false, some v, none⟩ }) } })
      ∧ (almBusy s p = true → ∃ t, exec (.flip (.reg v val)) s = .next t ∧ (almOf t p).cause = pfBusy
        ∧ (almOf t p).flip = (almOf s p).flip ∧ 1780 ∈ t.ev.pending ∧ t.alm.entries = s.alm.entries))
    ∧ (∀ g d rest p, s.offers g d rest → descGood d = true → dOp d = 6 → fld (dBytes d 4 1) 1 0 = 1 → p = ringPart g →
      bit (dBytes d 4 1) 5 = true ∨ bit (timCtlNext s) 15 = true →
      (almBusy s p = false → ∃ t, exec (.flip (.desc g)) s = .next t ∧ t.host.cpl = s.host.cpl
        ∧ (almOf t p).flip = some ⟨bit (dBytes d 4 1) 5, dBytes d 8 4, none, false, none, some (g, dTag d)⟩)
      ∧ (almBusy s p = true → ∃ t, exec (.flip (.desc g)) s = .next t ∧ (almOf t p).cause = pfBusy
        ∧ (almOf t p).flip = (almOf s p).flip ∧ t.host.cpl = s.host.cpl ++ [doneCpl g d stRefused pfBusy 0]))
    ∧ (∀ p f, (almOf s p).flip = some f → f.boundary = none → f.inJournal = false →
      (∀ c i, checkPage s p = some (c, i) → c ≠ 0 → ∃ t, exec (.flipCheckDone p) s = .next t ∧ (almOf t p).flip = none
        ∧ (almOf t p).cause = c ∧ (almOf t p).fail = i ∧ (almOf t p).page = (almOf s p).page ∧ 1780 ∈ t.ev.pending
        ∧ (∀ g tag, f.ring = some (g, tag) → g < deadRing →
            t.host.cpl = s.host.cpl ++ [⟨g, kDone, flipStatus c, c, tag, i, 0, 1, [], [], none⟩]))
      ∧ (checkPage s p = none → runActive s = true → targetBoundary s f.next f.frame = none →
          ∃ t, exec (.flipCheckDone p) s = .next t ∧ (almOf t p).flip = none ∧ (almOf t p).cause = pfTooLate
            ∧ (almOf t p).page = (almOf s p).page)
      ∧ (∀ b, checkPage s p = none → runActive s = true → targetBoundary s f.next f.frame = some b → s.jrn.waiting = [] →
          s.jrn.intake.length < 8 → ∃ t e, exec (.flipCheckDone p) s = .next t
            ∧ (almOf t p).flip = some { f with inJournal := true } ∧ t.jrn.intake = s.jrn.intake ++ [e]
            ∧ e.record.kind = 0x08 ∧ e.changes = [.flip p (some b)] ∧ { t with alm := s.alm, jrn := s.jrn } = s)
      ∧ (checkPage s p = none → runActive s = false → f.next = true → s.jrn.waiting = [] → s.jrn.intake.length < 8 →
          ∃ t e, exec (.flipCheckDone p) s = .next t ∧ t.jrn.intake = s.jrn.intake ++ [e] ∧ e.changes = [.flip p none])
      ∧ (checkPage s p = none → runActive s = false → f.next = false → ∃ t, exec (.flipCheckDone p) s = .next t
            ∧ (almOf t p).flip = none ∧ (almOf t p).cause = pfStopped ∧ 1780 ∈ t.ev.pending))
    ∧ (∀ p f b, (almOf s p).flip = some f → (almOf (applyChange s (.flip p (some b)) true) p).flip
        = some { f with boundary := some b, inJournal := false })
    ∧ (∀ p f, (almOf s p).flip = some f → (almOf (applyChange s (.flip p none) true) p).page = 1 - (almOf s p).page)
    ∧ (∀ v (val : Word) p, fld val.toNat 15 14 = 2 → p = viewPart s v →
      s.commitsTo (.flipCancel (.reg v val)) v .timPgcmd 0 val.toNat fun u =>
        (almOf u p).flip = none ∧ (almOf u p).cause = pfCancelled ∧ (almOf u p).page = (almOf s p).page
          ∧ 1780 ∈ u.ev.pending ∧ u.alm.entries = s.alm.entries)
    ∧ (∀ g d rest p, s.offers g d rest → descGood d = true → dOp d = 6 → fld (dBytes d 4 1) 1 0 = 2 → p = ringPart g →
      (flipCancellable s p = true → ∃ t, exec (.flipCancel (.desc g)) s = .next t ∧ (almOf t p).flip = none
        ∧ (almOf t p).cause = pfCancelled ∧ (almOf t p).page = (almOf s p).page
        ∧ t.host.cpl.getLast? = some (doneCpl g d stOk 0 0))
      ∧ (flipCancellable s p = false → exec (.flipCancel (.desc g)) s = .next (s.doneWith g d rest stRefused 0 0))))

/-- QUEUE_CONFIG and SUBMISSION (R213 to R217). ADMISSION: an F1 cycle starts one enqueue operation and fixes the
decision of the one started 32 cycles before, in the order of Table 10-5 (R215, R223, R224, R226, R234). The
refusals of Table 10-5 in its order, and what a promised admission books (R214, R222, R224, R226, R228). What the
manual leaves open here follows the model's own choices, log entries 2, 8, 54 and 91. -/
def Obligations.QueueAdmission : Prop :=
  (∀ s : State,
    (∀ v (lo : Word) n q, n = (holding s v 0x40218).toNat * 65536 + lo.toNat → q = n % 0x100000 →
      s.commitsTo (.queueConfig v lo) v .qeQselLo 0 n fun u =>
        (queueOf u q).cfg = BitVec.ofNat 96 (qcfgWords s v)
          ∧ (qClass (qcfgWords s v) = 2 → (queueOf u q).tokens = qBurst (qcfgWords s v) * 1000)
          ∧ (queueOf u q).epoch = (queueOf s q).epoch ∧ (queueOf u q).cnt = (queueOf s q).cnt
          ∧ (∀ q', q' ≠ q → queueOf u q' = queueOf s q') ∧ { u with jrn := s.jrn, qe := s.qe } = s)
    ∧ (∀ v n q, n % 0x100000 = q → s.takes v .qeQselLo 0 n → ownsQid s (viewPart s v) q = true)
    ∧ (∀ sub, s.mode.busUp = true → ∃ t x, exec (.submission sub) s = .next t ∧ t.qe.xfers = s.qe.xfers ++ [x]
      ∧ x.tid = s.qe.nextTid ∧ x.sub = sub ∧ x.legs = [] ∧ x.decided = false
      ∧ (sub.legs = 0 → x.undecided = [0]) ∧ (sub.legs ≠ 0 → ∀ i, i ∈ x.undecided ↔ i < 16 ∧ sub.legs.getLsbD i = true)
      ∧ { t with qe := { t.qe with xfers := s.qe.xfers, nextTid := s.qe.nextTid } } = s))
  ∧ (∀ s : State,
    (coreRuns s = false → exec .admission s = .next s)
    ∧ (coreRuns s = true → s.qe.ops = [] → s.qe.started = s.clk.f1 + 1 ∨ nextOperation s = none →
        exec .admission s = .next s)
    ∧ (∀ o, coreRuns s = true → s.qe.ops = [] → s.qe.started ≠ s.clk.f1 + 1 → nextOperation s = some o →
      exec .admission s = .next { s with qe := { s.qe with ops := [o], started := s.clk.f1 + 1 } }
        ∧ o.at_ = s.clk.f1 ∧ (∃ x ∈ s.qe.xfers, x.tid = o.tid ∧ o.leg ∈ x.undecided
          ∧ ((∃ y ∈ s.qe.xfers, y.sub.part = s.clk.f1 % 16 ∧ y.undecided ≠ []) → x.sub.part = s.clk.f1 % 16)))
    ∧ (∀ (o : EnqOp) (later : List EnqOp) (x : Xfer) (i q : Nat) (rest : List Nat), coreRuns s = true →
        s.qe.ops = o :: later → passed s o.at_ 32 = true → (∀ y ∈ later, passed s y.at_ 32 = false) →
        x ∈ s.qe.xfers → x.tid = o.tid → (∀ y ∈ s.qe.xfers, y.tid = x.tid → y = x) → i = o.leg → i ∈ x.undecided →
        rest = x.undecided.filter (· != i) → q = x.sub.qid + i → (queueOf s q).bad = false → swapAhead s q = none →
      (∀ st c, decideLeg s x i = .refuse st c → ∃ t, exec .admission s = .next (startOperation t) ∧ t.qe.ops = later
        ∧ (queueOf t q).cnt.refused = sat 16 ((queueOf s q).cnt.refused + 1)
        ∧ (∀ q', q' ≠ q → queueOf t q' = queueOf s q')
        ∧ (rest ≠ [] → ∃ y ∈ t.qe.xfers, y.tid = x.tid ∧ y.undecided = rest ∧ y.legs = x.legs
            ∧ y.refusals = x.refusals ++ [(i, st, c)])
        ∧ (rest = [] → x.legs = [] → (∀ y ∈ t.qe.xfers, y.tid ≠ x.tid)
            ∧ (∀ g tag, x.sub.src = .ring g tag → g < deadRing → x.sub.legs = 0 → x.refusals = [] →
                t.host.cpl = s.host.cpl ++ [⟨g, kFinal, st, c, tag, 0, 0, 2, [], [], none⟩]))
        ∧ (x.legs = [] → t.fab = s.fab ∧ t.regs = s.regs ∧ t.vregs = s.vregs ∧ t.alm = s.alm ∧ t.bank = s.bank))
      ∧ (∀ bs ch sp, decideLeg s x i = .accept bs ch sp → ∃ t, exec .admission s = .next (startOperation t)
        ∧ t.qe.ops = later
        ∧ (queueOf t q).cnt.admitted = sat 32 ((queueOf s q).cnt.admitted + 1)
        ∧ (∀ q', q' ≠ q → queueOf t q' = queueOf s q')
        ∧ (∃ y ∈ t.qe.xfers, y.tid = x.tid ∧ y.undecided = rest ∧ y.charge = ch ∧ y.legs.length = x.legs.length + 1
            ∧ ∃ l ∈ y.legs, l.idx = i ∧ l.qid = q ∧ l.cls = qClass (qcfg s q) ∧ l.egress = qEgress (qcfg s q)
              ∧ l.booked = bs ∧ l.tag.toNat = qTag (qcfg s q) ∧ l.lateact = qLateact (qcfg s q)
              ∧ l.retry = qRetry (qcfg s q) ∧ l.left = cellsOf x.sub.len ∧ l.ending = .running)
        ∧ (∀ g tag, rest = [] → x.sub.src = .ring g tag → x.data = none →
            ∃ r ∈ t.host.reads, r.what = .src x.tid ∧ r.addr = x.sub.addr ∧ r.len = x.sub.len + 1)
        ∧ t.fab = s.fab ∧ t.regs = s.regs ∧ t.vregs = s.vregs ∧ t.alm = s.alm)))
  ∧ (∀ (s : State) (x : Xfer) (i q p : Nat), q = x.sub.qid + i → p = x.sub.part →
    (ownsQid s p q = false → decideLeg s x i = .refuse stDenied 1)
    ∧ (ownsQid s p q = true → enabled s p = false → decideLeg s x i = .refuse stDenied 2)
    ∧ (ownsQid s p q = true → enabled s p = true → qClass (qcfg s q) = 0 ∨ bit (admCtl s p) 15 = false
          ∨ entryPast s 3 = true → decideLeg s x i = .refuse stRefused 2)
    ∧ (∀ bs ch sp, decideLeg s x i = .accept bs ch sp →
        ownsQid s p q = true ∧ enabled s p = true ∧ qClass (qcfg s q) ≠ 0 ∧ (queueOf s q).dead = false
          ∧ bit (admCtl s p) 15 = true ∧ entryPast s 3 = false
          ∧ queueHeld s q + cellsOf x.sub.len ≤ qDepth (qcfg s q)
          ∧ (qClass (qcfg s q) = 1 → runActive s = true ∧ ch = .promised ∧ book s p q x.sub.len = .ok bs
            ∧ (limitOf s x ≠ 0 → (bs.getLast?.map (·.finish)).getD 0 ≤ limitOf s x))
          ∧ (qClass (qcfg s q) ≠ 1 → bs = []))
    ∧ (∀ k n, x.sub.src = .fsp k n → x.sub.limit ≠ 0 → limitOf s x = s.clk.systime + x.sub.limit * 1000)
    ∧ (∀ bs, book s p q x.sub.len = .ok bs → ∀ b ∈ bs,
        sysNow s + qLead (qcfg s q) * 1000 ≤ b.slot ∧ lastBooked s q ≤ b.slot ∧ b.seq = s.qe.nextSeq))

/-- SPILL_RETURN and DBCNT to FSP_COMPLETION_WORD, FSP_RING_ENABLE (R97, R216, R219 to R222). What the manual leaves
open here follows the model's own choices, log entries 2, 55, 56 and 109. -/
def Obligations.FspRings : Prop :=
  ∀ s : State,
    (∀ p x n o rest sense bs u, coreRuns s = true → shapedHeld s p < squota s p → spilledCell s p = some x →
        x.spill = (n, o) :: rest → dramRefusal s x.sub.part o (.read 256) = none →
        dramAccess s o 6 (.read 256) sense = (0, bs, u) →
      exec (.spillReturn p sense) s = .next (setXfer u { x with spill := rest }))
    ∧ (∀ p sense, coreRuns s = false ∨ squota s p ≤ shapedHeld s p ∨ spilledCell s p = none →
        exec (.spillReturn p sense) s = .next s)
    ∧ (∀ k, fspCounts s k = true → exec (.dbcnt k (dbcntIn s k)) s = .next { s with
        qe := { s.qe with fsp := tmod {} s.qe.fsp k fun f => { f with unread := f.unread + dbcntIn s k } }
        fab := { s.fab with announced := sins k s.fab.announced } })
    ∧ (∀ k n, fspCounts s k = false ∨ n ≠ dbcntIn s k → exec (.dbcnt k n) s = .next s)
    ∧ (∀ k b a, k < 256 → fspEn s k = true → (fspOf s k).unread > 0 → (fspOf s k).reader = none → fspIn s k 3 = false →
        userRuns s (fspPart s k) = true → b = fld (fspB s k) 10 0 → b < 1536 →
        a = ((fld (fspR s k) 10 0 + (fspOf s k).head % fspEntries s k) * 16) % 0x8000 →
        portBRefusal s b 6 (fspPart s k) (.read 4) = none → ∃ t r, exec (.fspEntryRead k) s = .next t
      ∧ fspOf t k = { fspOf s k with reader := some r } ∧ r.left = 16 ∧ r.id = s.bank.nextId
      ∧ tget [] t.bank.waiting b = tget [] s.bank.waiting b ++ [⟨s.bank.nextId, 6, fspPart s k, a, .read 4⟩]
      ∧ (∀ b', b' ≠ b → tget [] t.bank.waiting b' = tget [] s.bank.waiting b')
      ∧ (∀ k', k' ≠ k → fspOf t k' = fspOf s k')
      ∧ t.qe.xfers = s.qe.xfers ∧ { t with qe := s.qe, bank := s.bank } = s)
    ∧ (∀ k bs w f, w = (fun i => leVal ((bs.drop (2 * i)).take 2)) →
        f = { fspOf s k with head := (fspOf s k).head + 1, unread := (fspOf s k).unread - 1, reader := none } →
      (w 1 < 16 → w 6 = 0 → w 7 = 0 → ∃ y, (entryRead s k stOk bs).qe.xfers = s.qe.xfers ++ [y]
          ∧ y.sub.src = .fsp k ((fspOf s k).head % fspEntries s k) ∧ y.sub.part = fspPart s k
          ∧ y.sub.qid = w 0 + w 1 * 65536 ∧ y.sub.legs = BitVec.ofNat 16 (w 2) ∧ y.sub.len = w 3 ∧ y.sub.addr = w 4
          ∧ y.sub.limit = w 5 ∧ fspOf (entryRead s k stOk bs) k = f ∧ { entryRead s k stOk bs with qe := s.qe } = s)
      ∧ (∀ st, st ≠ stOk → fspOf (entryRead s k st bs) k = { f with cpl := f.cpl ++
          [BitVec.ofNat 16 (st % 16 * 4096 + 10 * 256 + (fspOf s k).head % fspEntries s k % 256)] }
          ∧ (entryRead s k st bs).qe.xfers = s.qe.xfers)
      ∧ (w 1 ≥ 16 ∨ w 6 ≠ 0 ∨ w 7 ≠ 0 → fspOf (entryRead s k stOk bs) k = { f with cpl := f.cpl ++
          [BitVec.ofNat 16 (stInvalid * 4096 + 10 * 256 + (fspOf s k).head % fspEntries s k % 256)] }
          ∧ (entryRead s k stOk bs).qe.xfers = s.qe.xfers))
    ∧ (∀ k w rest, (fspOf s k).cpl = w :: rest → (fspOf s k).speaking = false → userRuns s (fspPart s k) = true →
        ∃ t, exec (.fspCompletionWord k) s = .next t
        ∧ fspOf t k = { fspOf s k with cpl := rest, sig := BitVec.ofNat 20 (0x90000 + w.toNat) }
        ∧ (∀ k', k' ≠ k → fspOf t k' = fspOf s k') ∧ { t with qe := { t.qe with fsp := s.qe.fsp } } = s)
    ∧ (∀ k, (fspOf s k).cpl = [] ∨ (fspOf s k).speaking = true ∨ userRuns s (fspPart s k) = false →
        exec (.fspCompletionWord k) s = .next s)
    ∧ (∀ v k (val : Word), k < 256 → val.getLsbD 15 = true → s.commitsTo (.fspRingEnable v k val) v .qeFspb k val.toNat fun u =>
        fspB u k = val.toNat &&& 0x87FF ∧ (fspOf u k).cpl = (fspOf s k).cpl
          ∧ (bit (fspB s k) 15 = false → (fspOf u k).head = 0 ∧ (fspOf u k).unread = 0 ∧ (fspOf u k).reader = none)
          ∧ (bit (fspB s k) 15 = true → fspOf u k = fspOf s k)
          ∧ (∀ k', k' ≠ k → fspOf u k' = fspOf s k' ∧ fspB u k' = fspB s k') ∧ u.bank = s.bank)

/-- CELL_DELIVERY on a link, on a host path and on an FSP, and a cell that reads as uncorrectable (R215, R220, R230,
R231, R252, R287, R321). LATE and FINAL (R215, R218, R233, R234, R236, R237, Table 10-8). What the manual leaves
open here follows the model's own choices, log entries 2, 54, 57, 58, 111 and 112. -/
def Obligations.CellDelivery : Prop :=
  (∀ (s : State) (e : Nat),
    (e < 192 ∨ s.clk.slotLen ≤ s.clk.k ∨ s.clk.boundaryDue = true ∨ nextCell s e = none → exec (.cellDelivery e) s = .next s)
    ∧ (∀ x l kind i n prom bs, 192 ≤ e → s.clk.k < s.clk.slotLen → s.clk.boundaryDue = false →
        nextCell s e = some (x, l, kind) → l.egress = e →
        (∀ y ∈ s.qe.xfers, y.tid = x.tid → y = x) → l ∈ x.legs → (∀ m ∈ x.legs, m.idx = l.idx → m = l) → l.left > 0 →
        n = cellsOf x.sub.len → i = n - l.left → prom = (kind == 0) → bs = cellBytes x i →
      (i ∈ x.bad → ∃ t, exec (.cellDelivery e) s = .next t
        ∧ (∀ y ∈ t.qe.xfers, y.tid = x.tid → y.srcFail = some stUe
          ∧ ∀ m ∈ y.legs, (m.cls ≠ 1 → m.left = 0) ∧ (m.cls = 1 → m.ending = .running → m.left > 0 → .ue ∈ m.facts))
        ∧ (∀ q, (queueOf t q).cnt = (queueOf s q).cnt) ∧ t.host.cpl = s.host.cpl ∧ t.fab = s.fab ∧ t.regs = s.regs)
      ∧ (i ∉ x.bad → (∀ k, egressOf e ≠ some (.fsp k)) → ∃ t, exec (.cellDelivery e) s = .next t
        ∧ (l.left > 1 → ∃ y ∈ t.qe.xfers, ∃ m ∈ y.legs, y.tid = x.tid ∧ m.idx = l.idx ∧ m.left = l.left - 1 ∧ m.ending = l.ending)
        ∧ (l.left = 1 → ∀ y ∈ t.qe.xfers, y.tid = x.tid → ∀ m ∈ y.legs, m.idx = l.idx → m.left = 0
            ∧ (l.ending = .running → m.ending = .delivered))
        ∧ (l.ending = .running → (queueOf t l.qid).cnt.delivered = sat 32 ((queueOf s l.qid).cnt.delivered + 1))
        ∧ (l.ending ≠ .running → (queueOf t l.qid).cnt.lateCells = sat 16 ((queueOf s l.qid).cnt.lateCells + 1))
        ∧ (l.deliverAs = 2 → (queueOf t l.qid).tokens = (queueOf s l.qid).tokens - 1000)
        ∧ (∀ q, q ≠ l.qid → queueOf t q = queueOf s q) ∧ t.fab = s.fab ∧ t.bank = s.bank ∧ t.regs = s.regs ∧ t.alm = s.alm
        ∧ (∀ k, egressOf e = some (.link k) → s.outs ++ [.linkCell k (mapEntry x l i n prom bs) (padCell bs)] <+: t.outs)
        ∧ (∀ g b mps, egressOf e = some (.host g) → mps = (tget {} s.host.fns (ringPart g)).mps →
            l.rxbuf = some b ∨ (l.rxbuf = none ∧ (ringOf s g).rx.head? = some b) →
          (bs.length ≤ mps → s.outs ++ [.hostWrite (b.addr + 256 * i) bs] <+: t.outs)
          ∧ (mps < bs.length → bs.length ≤ 2 * mps → s.outs ++ [.hostWrite (b.addr + 256 * i) (bs.take mps),
              .hostWrite (b.addr + 256 * i + mps) (bs.drop mps)] <+: t.outs)
          ∧ (l.left = 1 → g < deadRing → t.host.cpl = s.host.cpl ++ [⟨g, kRx, stOk, 0, b.tag,
              l.qid % 2 ^ 20 + sysNow s % 2 ^ 32 * 2 ^ 32, x.sub.len, 1, [], [], none⟩])))
      ∧ (∀ k, i ∉ x.bad → egressOf e = some (.fsp k) → ∃ t, exec (.cellDelivery e) s = .next t
        ∧ fspOf t k = { fspOf s k with outq := fspWords l.tag.toNat prom bs, cell := some (x.tid, l.idx, kind) }
        ∧ (∀ k', k' ≠ k → fspOf t k' = fspOf s k') ∧ t.qe.xfers = s.qe.xfers
        ∧ (∀ q, (queueOf t q).cnt = (queueOf s q).cnt) ∧ { t with qe := s.qe } = s)))
  ∧ (∀ (s : State) (x : Xfer),
    (∀ l n, xferOf s x.tid = some x → x.legs.find? (·.idx == n) = some l → l.cls = 1 → l.ending = .running → l.left > 0 →
        l.promise ≤ sysNow s → x.sub.part < 16 →
      ∃ t, exec (.late x.tid n) s = .next t ∧ 1520 + x.sub.part ∈ t.ev.pending
        ∧ (queueOf t l.qid).cnt.late = sat 16 ((queueOf s l.qid).cnt.late + 1)
        ∧ (∃ y ∈ t.qe.xfers, y.tid = x.tid ∧ ∃ m ∈ y.legs, m.idx = l.idx ∧ m.ending = .late (lateCause s l) ∧ m.booked = []
            ∧ m.left = if l.lateact = true ∧ x.srcFail = none then l.left else 0)
        ∧ (∀ c ∈ l.facts, (lateCause s l).rank ≤ c.rank)
        ∧ (lateFacts s l = [] → lateCause s l = if l.egress < 200 then .medium else .hostStall)
        ∧ (∀ q, q ≠ l.qid → queueOf t q = queueOf s q) ∧ t.host = s.host ∧ t.fab = s.fab ∧ t.regs = s.regs)
    ∧ (∀ tid n, sysNow s < ((xferOf s tid).bind fun y => (y.legs.find? (·.idx == n)).map (·.promise)).getD (sysNow s + 1) →
        exec (.late tid n) s = .next s)
    ∧ (xferOf s x.tid = some x → xferEnded x = true → x.finalled = false →
      (∀ g tag, x.sub.src = .ring g tag → g < deadRing → (∀ l ∈ x.legs, l.ending ≠ .discarded) →
        (∀ l ∈ x.legs, l.rxbuf = none) → ∃ t c, exec (.final x.tid) s = .next t ∧ t.host.cpl = s.host.cpl ++ [c]
          ∧ c.ring = g ∧ c.kind = kFinal ∧ c.tag = tag
          ∧ ((∀ l ∈ x.legs, l.ending = .delivered) → c.status = stOk ∧ c.cause = 0)
          ∧ (∀ l, x.legs = [l] → x.sub.legs = 0 → (c.status, c.cause) = legOutcome l.ending)
          ∧ (x.sub.legs ≠ 0 → (∃ l ∈ x.legs, l.ending ≠ .delivered) → c.status = stPartial)
          ∧ ((∀ l ∈ x.legs, l.left = 0) → ∀ y ∈ t.qe.xfers, y.tid ≠ x.tid)
          ∧ t.fab = s.fab ∧ t.bank = s.bank ∧ t.regs = s.regs)
      ∧ (∀ k n, x.sub.src = .fsp k n → (∀ l ∈ x.legs, l.ending = .delivered) → ∃ t, exec (.final x.tid) s = .next t
          ∧ (fspOf t k).cpl = (fspOf s k).cpl ++ [BitVec.ofNat 16 (n % 256)]))
    ∧ (∀ tid, xferOf s tid = none ∨ (∃ y, xferOf s tid = some y ∧ (xferEnded y = false ∨ y.finalled = true)) →
        exec (.final tid) s = .next s))

/-- MIGRATE: QE_MIGRATE or a MIGRATE descriptor (R176, R178, R179, R235). What the manual leaves open here follows
the model's own choices, log entries 2 and 108. -/
def Obligations.Migrations : Prop :=
  ∀ s : State,
    (∀ p q e, (ownsQid s p q = false → migrateStatus s p q e = stDenied)
      ∧ (ownsQid s p q = true → egressOwned s p e = true → e = qEgress (qcfg s q) → migrateStatus s p q e = stInvalid)
      ∧ (migrateStatus s p q e = stOk → (queueOf s q).old = none ∧ egressValid e = true ∧ qClass (qcfg s q) ≠ 0))
    ∧ (∀ p q e a, migrateStatus s p q e = stOk → epochHeld s q (queueOf s q).epoch = true →
      (migrate s p q e a).1 = stOk
        ∧ qEgress (qcfg (migrate s p q e a).2 q) = e % 8192
        ∧ (queueOf (migrate s p q e a).2 q).epoch = ((queueOf s q).epoch + 1) % 256
        ∧ ∃ o, (queueOf (migrate s p q e a).2 q).old = some o ∧ o.pending = false ∧ o.epoch = (queueOf s q).epoch
          ∧ o.egress = qEgress (qcfg s q) ∧ sysNow s + a * 1000 ≤ o.deadline)
    ∧ (∀ p q e a, migrateStatus s p q e ≠ stOk → migrate s p q e a = (migrateStatus s p q e, s))
    ∧ (∀ v (val : Word) n q, n = (holding s v 0x40308).toNat * 65536 + val.toNat → q = n % 0x100000 →
      s.takes v .qeMigrateLo 0 n → ∃ t u j, exec (.migrate (.reg v val)) s = .next t ∧ (tget {} t.qe.mig (viewCode v)).pend = true
        ∧ t.jrn.intake.length = 1 ∧ { t with jrn := s.jrn, qe := { t.qe with mig := s.qe.mig } } = s
        ∧ exec .journalCommit t = .next u ∧ tget {} u.qe.mig (viewCode v)
            = ⟨false, q, migrateStatus s (viewPart s v) q (vw s v 0x40300 0).toNat⟩
        ∧ { u with qe := { u.qe with mig := s.qe.mig } } = { (migrate { s with jrn := j } (viewPart s v) q
            (vw s v 0x40300 0).toNat (vw s v 0x40304 0).toNat).2 with jrn := u.jrn })
    ∧ (∀ g d rest st, s.offers g d rest → descGood d = true → dOp d = 7 →
        st = migrateStatus s (ringPart g) (dBytes d 4 4) (dBytes d 8 2) → ∃ t, exec (.migrate (.desc g)) s = .next t
      ∧ t.host.cpl = s.host.cpl ++ [doneCpl g d st 0 (if st = stOk then sysNow s else 0)]
      ∧ t.qe = (migrate s (ringPart g) (dBytes d 4 4) (dBytes d 8 2) (dBytes d 10 2)).2.qe ∧ t.fab = s.fab ∧ t.regs = s.regs)

/-- SQ_DOORBELL, CQ_DOORBELL and RING_CONFIG (R243 to R246, R259). HCAP_CHANGE, CONFIGURATION_SPACE_WRITE, FLR and
LINK_DOWN (R31, R238, R240, R251, R253, R254, R258, R260, R261). What the manual leaves open here follows the
model's own choices, log entries 2, 33, 59 and 63. -/
def Obligations.HostRings : Prop :=
  (∀ s : State,
    (∀ (g : Nat) (val : BitVec 32) (r : Ring) (idx : Nat), r = ringOf s g → idx = val.toNat % 65536 → g < deadRing →
        functionUp s (ringPart g) = true → fld val.toNat 31 30 = 0 → fld val.toNat 28 17 = g → r.state = .running →
      (val.getLsbD 29 = false → idx < r.sqN →
        (fld val.toNat 16 16 * r.sqN + idx + 2 * r.sqN - r.sqTail) % (2 * r.sqN)
          ≤ r.sqN - (r.sqTail + 2 * r.sqN - r.sqHead) % (2 * r.sqN) →
        exec (.sqDoorbell g val 0 4) s = .next (setRing s g { r with sqTail := fld val.toNat 16 16 * r.sqN + idx }))
      ∧ (val.getLsbD 29 = false → r.sqN ≤ idx → ∃ t, exec (.sqDoorbell g val 0 4) s = .next t
        ∧ (ringOf t g).state = .error 1
        ∧ (ringOf t g).rx = [] ∧ 1584 + ringPart g ∈ t.ev.pending ∧ (∀ g', g' ≠ g → ringOf t g' = ringOf s g'))
      ∧ (val.getLsbD 29 = true → idx < r.cqN →
        (fld val.toNat 16 16 * r.cqN + idx + 2 * r.cqN - r.cqHead) % (2 * r.cqN)
          ≤ (r.cqTail + 2 * r.cqN - r.cqHead) % (2 * r.cqN) →
        exec (.cqDoorbell g val 0 4) s = .next (setRing s g { r with cqHead := fld val.toNat 16 16 * r.cqN + idx }))
      ∧ (val.getLsbD 29 = true → r.cqN ≤ idx → ∃ t, exec (.cqDoorbell g val 0 4) s = .next t
        ∧ (ringOf t g).state = .error 1
        ∧ (ringOf t g).rx = [] ∧ 1584 + ringPart g ∈ t.ev.pending ∧ (∀ g', g' ≠ g → ringOf t g' = ringOf s g')))
    ∧ (∀ g off size val, functionUp s (ringPart g) = false ∨ (ringOf s g).state ≠ .running ∨ off ≠ 0 ∨ size ≠ 4 →
        exec (.sqDoorbell g val off size) s = .next s ∧ exec (.cqDoorbell g val off size) s = .next s)
    ∧ (∀ v (val : Word) g c, g = val.toNat % 4096 → c = stagedRing s v →
      s.commitsTo (.ringConfig v val) v .sysRsel 0 val.toNat fun u =>
        ((ringOf s g).state = .disabled → bit c 191 = true →
            ringOf u g = { cfg := BitVec.ofNat 192 c, state := .running })
          ∧ ((ringOf s g).state = .disabled → bit c 191 = false → ringOf u g = { ringOf s g with cfg := BitVec.ofNat 192 c })
          ∧ ((ringOf s g).state = .running → bit c 191 = true → ringOf u g = { ringOf s g with cfg := BitVec.ofNat 192 c })
          ∧ ((ringOf s g).state = .running → bit c 191 = false → (ringOf u g).rx = []
            ∧ (ringOf u g).reserved = (ringOf s g).reserved - (ringOf s g).rx.length
            ∧ (ringOf u g).state = if (ringOf s g).reserved ≤ (ringOf s g).rx.length then .disabled else .draining)
          ∧ (∀ g', g' ≠ g → ringOf u g' = ringOf s g')
          ∧ { u with jrn := s.jrn, host := { u.host with rings := s.host.rings } } = s))
  ∧ (∀ s : State,
    (∀ rate width, s.mode.busUp = true → 1 ≤ rate → rate ≤ 5 → width = 1 ∨ width = 2 ∨ width = 4 ∨ width = 8 →
      (s.host.rate ≠ 0 → exec (.hcapChange rate width) s = .next { s with host := { s.host with rate := rate, width := width } })
      ∧ (s.host.rate = 0 → ∃ t, exec (.hcapChange rate width) s = .next t
        ∧ Raised { s with host := { s.host with rate := rate, width := width } } 1617 t))
    ∧ (∀ fn w, s.host.rate = 0 ∨ functionExists s fn = false → exec (.configurationSpaceWrite fn w) s = .next s)
    ∧ (∀ fn f, s.host.rate ≠ 0 → functionExists s fn = true → f = fnOf s fn →
      (∀ w, (fnOf (cfgWrite s fn w) fn).pba = [] → exec (.configurationSpaceWrite fn w) s = .next (cfgWrite s fn w))
      ∧ (∀ w g, (∀ n, w ≠ .numVFs n) → g = fnOf (cfgWrite s fn w) fn →
          { cfgWrite s fn w with host := { (cfgWrite s fn w).host with fns := s.host.fns } } = s
          ∧ (∀ fn', fn' ≠ fn → fnOf (cfgWrite s fn w) fn' = fnOf s fn')
          ∧ (∀ b, w = .power b → g = { f with d3hot := b }) ∧ (∀ b, w = .busMaster b → g = { f with bme := b })
          ∧ (∀ b, w = .msixEnable b → g = { f with msixEn := b }) ∧ (∀ b, w = .msixFunctionMask b → g = { f with msixFm := b })
          ∧ (∀ v, w = .msixMask v true → v < msixSize fn → v ∉ g.unmasked)
          ∧ (∀ v, w = .msixMask v false → v < msixSize fn → v ∈ g.unmasked)
          ∧ (∀ v a d, w = .msixEntry v a d → v < msixSize fn → (tget 0 g.msixTable v).toNat = d.toNat * 2 ^ 64 + a.toNat)
          ∧ (w = .maxPayload 256 → g = { f with mps := 256 }) ∧ (w = .maxReadRequest 4096 → g = { f with mrrs := 4096 })
          ∧ (∀ a, w = .bar2 a → g.bar2 = a &&& 0xFFFFFFFFFFE00000)
          ∧ (∀ m, w = .aerClear m → g = { f with aer := f.aer &&& ~~~m }))
      ∧ (∀ n, fn = 0 → n ≤ 15 → cfgWrite s fn (.numVFs n) =
          if s.fab.pers = 0 then { s with host := { s.host with numVFs := n } } else s)
      ∧ (∀ w v, (fnOf (cfgWrite s fn w) fn).pba = [v] →
        (msixOpen (cfgWrite s fn w) fn v = false → exec (.configurationSpaceWrite fn w) s = .next (cfgWrite s fn w))
        ∧ (msixOpen (cfgWrite s fn w) fn v = true → ∃ t, exec (.configurationSpaceWrite fn w) s = .next t
          ∧ (fnOf t fn).pba = [] ∧ t.outs = s.outs ++ [.msix fn v (tget 0 (fnOf (cfgWrite s fn w) fn).msixTable v)])))
    ∧ (∀ fn, s.host.rate ≠ 0 → functionExists s fn = true → fn < 16 → ∃ t, exec (.flr fn) s = .next t
      ∧ 1600 + fn ∈ t.ev.pending
      ∧ (∀ g, ringPart g = fn → ringOf t g = {}) ∧ (∀ c ∈ t.host.cpl, ringPart c.ring ≠ fn) ∧ fnOf t fn = {}
      ∧ (unitRuns s fn = false → tget [] t.host.dma fn = [])
      ∧ (∀ c, copyOf s fn = some c → unitRuns s fn = true → c.pos.isSome = true → ∀ d ∈ tget [] t.host.dma fn, d.abort = true)
      ∧ (∀ x ∈ t.qe.xfers, ∀ g tag, x.sub.src = .ring g tag → ringPart g ≠ fn)
      ∧ (fn = 0 → t.host.numVFs = 0) ∧ t.host.rate = s.host.rate ∧ t.vregs = s.vregs ∧ t.alm.entries = s.alm.entries)
    ∧ (∀ why, s.host.rate ≠ 0 ∨ why ≠ .linkDown → ∃ t, exec (.linkDown why) s = .next t ∧ t.host.rate = 0 ∧ t.host.width = 0
      ∧ t.host.hcap = 0 ∧ t.host.numVFs = 0 ∧ t.host.fns = [] ∧ (s.host.rate ≠ 0 → 1616 ∈ t.ev.pending)
      ∧ (∀ g, ringPart g < 16 → ringOf t g = {}) ∧ t.vregs = s.vregs ∧ t.alm.entries = s.alm.entries)
    ∧ (s.host.rate = 0 → exec (.linkDown .linkDown) s = .next s))

/-- DESCRIPTOR_FETCH and DESC_INVALID (R247 to R249, R255, R329). XFER, RXBUF, LOAD, JDRAIN and COPY descriptors
(R156, R217, R247, R252, R256, R397, Table 11-5). What the manual leaves open here follows the model's own choices,
log entries 2, 8, 60, 61 and 87. -/
def Obligations.Descriptors : Prop :=
  (∀ (s : State) (g : Nat),
    (∀ res, fetchTurn s ≠ some g → exec (.descriptorFetch g res) s = .next s)
    ∧ (fetchTurn s = some g → fetchable (ringOf s g) = true → hostReached s (ringPart g) = true →
      (∀ ds, (∀ d ∈ (ringOf s g).fetched ++ ds, descGood d = false ∨ (dOp d ≠ 0 ∧ dOp d ≠ 8)) →
        ∃ t k, exec (.descriptorFetch g (some ds)) s = .next t ∧ k ≤ 8 ∧ k ≤ ds.length
          ∧ (ringOf t g).fetched = (ringOf s g).fetched ++ ds.take k
          ∧ (ringOf t g).reserved = (ringOf s g).reserved + total ((ds.take k).map descNeed)
          ∧ (ringOf t g).state = (ringOf s g).state ∧ (ringOf t g).cqTail = (ringOf s g).cqTail
          ∧ (ringOf t g).sqTail = (ringOf s g).sqTail ∧ t.host.lastRing = g
          ∧ (∀ g', g' ≠ g → ringOf t g' = ringOf s g')
          ∧ { t with host := { t.host with rings := s.host.rings, lastRing := s.host.lastRing } } = s)
      ∧ (∀ d, (ringOf s g).fetched = [] → descGood d = true → dOp d = 0 → g < deadRing →
        ∃ t, exec (.descriptorFetch g (some [d])) s = .next t ∧ (ringOf t g).fetched = []
          ∧ t.host.cpl = s.host.cpl ++ [doneCpl g d stOk 0 0] ∧ (ringOf t g).reserved = (ringOf s g).reserved + 1)
      ∧ (∀ d, (ringOf s g).fetched = [] → descGood d = true → dOp d = 8 → g < deadRing →
        ∃ t, exec (.descriptorFetch g (some [d])) s = .next t ∧ (ringOf t g).fetched = []
          ∧ (ringOf t g).reserved = (ringOf s g).reserved + 1
          ∧ ((tget [] s.mgt.places (ringPart g)).length < 16 → t.host.cpl = s.host.cpl ∧ tget [] t.mgt.places (ringPart g) =
            tget [] s.mgt.places (ringPart g) ++ [⟨g, dTag d, dBytes d 4 2, dBytes d 8 4, dBytes d 12 4, dBytes d 16 8,
              dBytes d 24 8, none, false, false, false⟩])
          ∧ (16 ≤ (tget [] s.mgt.places (ringPart g)).length → t.mgt = s.mgt
            ∧ t.host.cpl = s.host.cpl ++ [doneCpl g d stBusy 0 0]))
      ∧ (∃ t, exec (.descriptorFetch g none) s = .next t ∧ (ringOf t g).state = .error 2 ∧ (ringOf t g).rx = []
          ∧ (ringOf t g).fetched = (ringOf s g).fetched ∧ (g < 4096 → 1584 + ringPart g ∈ t.ev.pending)))
    ∧ (∀ d rest, s.offers g d rest → descGood d = false →
        exec (.descInvalid g) s = .next (s.doneWith g d rest stInvalid 0 0)))
  ∧ (∀ (s : State) (g : Nat) (d : BitVec 256) (rest : List (BitVec 256)), s.offers g d rest → descGood d = true →
    (dOp d = 1 → ∃ t x, exec (.xfer g) s = .next t ∧ t.qe.xfers = s.qe.xfers ++ [x] ∧ x.tid = s.qe.nextTid
      ∧ x.sub = ⟨.ring g (dTag d), ringPart g, dBytes d 4 4, BitVec.ofNat 16 (dBytes d 8 2), dBytes d 10 2,
          dBytes d 16 8, dBytes d 24 8, []⟩ ∧ x.legs = [] ∧ x.decided = false ∧ { t with qe := s.qe } = s.took g rest)
    ∧ (dOp d = 2 →
      (1 ≤ dBytes d 8 2 → dBytes d 8 2 ≤ 256 → fld (ringOf s g).cfg.toNat 152 144 ≤ dBytes d 8 2 →
        (ringOf s g).state = .running → ∃ t, exec (.rxbuf g) s = .next t ∧ ringOf t g = { ringOf s g with
          fetched := rest, rx := (ringOf s g).rx ++ [⟨dBytes d 24 8, dBytes d 8 2, dTag d⟩] }
        ∧ (∀ g', g' ≠ g → ringOf t g' = ringOf s g') ∧ { t with host := { t.host with rings := s.host.rings } } = s)
      ∧ (dBytes d 8 2 = 0 ∨ 256 < dBytes d 8 2 ∨ dBytes d 8 2 < fld (ringOf s g).cfg.toNat 152 144 →
        exec (.rxbuf g) s = .next (s.doneWith g d rest stInvalid 0 0)))
    ∧ (dOp d = 3 → ∀ mask claim fn cg, fn = ringPart g → cg = dBytes d 1 1 % 4 → claim = mask.filter (regionPart s · == fn) →
      (loadRefusal s fn fn cg claim = none → ∃ t, exec (.load g mask) s = .next t
        ∧ t.ldr.waiting = s.ldr.waiting ++ [newLoad fn fn cg (.host g (dTag d) (dBytes d 24 8) (dBytes d 4 4)) claim s.clk.f1]
        ∧ (loadStat t fn).state = 1 ∧ (loadStat t fn).path = 1 ∧ { t with ldr := s.ldr } = s.took g rest)
      ∧ (∀ st c, loadRefusal s fn fn cg claim = some (st, c) → exec (.load g mask) s = .next (s.doneWith g d rest st c 0)))
    ∧ (dOp d = 9 →
      (ringPart g = 0 → dBytes d 8 2 ≠ 0 → ∃ t b, exec (.jdrain g) s = .next t
        ∧ t.jrn.buffers.length = s.jrn.buffers.length + 1 ∧ t.jrn.buffers.getLast? = some b ∧ b.ring = g ∧ b.tag = dTag d
        ∧ b.cap = dBytes d 8 2 ∧ b.addr = dBytes d 24 8 ∧ b.recs.length ≤ b.cap ∧ t.jrn.seq = s.jrn.seq
        ∧ { t with jrn := s.jrn } = s.took g rest)
      ∧ (ringPart g ≠ 0 → exec (.jdrain g) s = .next (s.doneWith g d rest stDenied 0 0))
      ∧ (ringPart g = 0 → dBytes d 8 2 = 0 → exec (.jdrain g) s = .next (s.doneWith g d rest stInvalid 0 0)))
    ∧ (dOp d = 10 → ∃ t, exec (.copy g) s = .next t
      ∧ tget [] t.host.dma (ringPart g) = tget [] s.host.dma (ringPart g) ++ [{
          ring := g, tag := dTag d,
          sdev := bit (dBytes d 1 1) 0, ddev := bit (dBytes d 1 1) 1, len := dBytes d 4 4, dst := dBytes d 16 8,
          src := dBytes d 24 8, pos := none, unitData := none }]
      ∧ { t with host := s.host } = s ∧ t.host.rings = (s.took g rest).host.rings))

/-- COPY_START and UNIT: the checks, one unit at a time over the channels in turn, what a unit's data become, and
the end of a copy (R256 to R258, Table 11-8). What the manual leaves open here follows the model's own choices, log
entries 2 and 68. -/
def Obligations.CopyChannels : Prop :=
  ∀ (s : State) (p : Nat) (c : Copy), copyOf s p = some c →
    (c.pos = none →
      (copyCheck s p c = none → ∃ t, exec (.copyStart p) s = .next t ∧ copyOf t p = some { c with pos := some 0 }
        ∧ { t with host := s.host } = s ∧ t.host.cpl = s.host.cpl)
      ∧ (∀ st, copyCheck s p c = some st → c.ring < deadRing → ∃ t, exec (.copyStart p) s = .next t
        ∧ tget [] t.host.dma p = (tget [] s.host.dma p).drop 1
        ∧ t.host.cpl = s.host.cpl ++ [⟨c.ring, kDone, st, 0, c.tag, 0, 0, 1, [], [], none⟩] ∧ { t with host := s.host } = s))
    ∧ ((List.range 16).any (unitRuns s) = true ∨ unitTurn s ≠ some p → exec (.unit p) s = .next s)
    ∧ (∀ k n, c.pos = some k → n = unitSize c k → (List.range 16).any (unitRuns s) = false → unitTurn s = some p →
      (c.sdev = false → exec (.unit p) s = .next { s with host := { s.host with
          lastDma := p, nextRead := s.host.nextRead + 1,
          reads := s.host.reads ++ [⟨s.host.nextRead, .copyUnit p, c.src + k, n, []⟩] } })
      ∧ (∀ b a m, c.sdev = true → bankOf (c.src + k) = some (b, a) → m = runChunk (c.src + k) n →
          portBRefusal s b dmaMaster p (.read m) = none → ∃ t r, exec (.unit p) s = .next t
        ∧ copyOf t p = some { c with run := some r, dreqs := [], dgot := [] } ∧ r.id = s.bank.nextId ∧ r.left = n ∧ r.put = none
        ∧ tget [] t.bank.waiting b = tget [] s.bank.waiting b ++ [⟨s.bank.nextId, dmaMaster, p, a, .read m⟩]
        ∧ t.host.lastDma = p ∧ t.host.cpl = s.host.cpl ∧ { t with bank := s.bank, host := s.host } = s))
    ∧ (∀ k bs, c.pos = some k → k + bs.length < c.len →
      (∀ x rest, pick (·.id == x.id) s.host.reads = some (x, rest) → x.what = .copyUnit p → x.got = [] → x.len = bs.length →
          bs ≠ [] → ∀ b a m, c.ddev = true → bankOf (c.dst + k) = some (b, a) → m = runChunk (c.dst + k) bs.length →
          portBRefusal s b dmaMaster p (.write (bs.take m)) = none → ∃ t r, exec (.hostReadCompletion x.id (.data bs)) s = .next t
        ∧ copyOf t p = some { c with unitData := some bs, run := some r, dreqs := [], dgot := [] } ∧ r.id = s.bank.nextId
        ∧ tget [] t.bank.waiting b = tget [] s.bank.waiting b ++ [⟨s.bank.nextId, dmaMaster, p, a, .write (bs.take m)⟩]
        ∧ t.host.reads = rest ∧ { t with bank := s.bank, host := s.host } = s)
      ∧ (c.ddev = false → c.abort = false → bs.length ≤ (fnOf s (ringPart c.ring)).mps →
        (unitStore s p c bs).outs = s.outs ++ [.hostWrite (c.dst + k) bs]
          ∧ copyOf (unitStore s p c bs) p = some { c with
              pos := some (k + bs.length), unitData := none, run := none, dreqs := [], dgot := [] } ∧ { unitStore s p c bs with host := s.host, outs := s.outs } = s)
      ∧ (c.unitData = some bs → c.abort = false → copyOf (unitWritten s p c) p = some { c with
          pos := some (k + bs.length), unitData := none, run := none, dreqs := [], dgot := [] } ∧ { unitWritten s p c with host := s.host } = s))
    ∧ (∀ k bs, c.pos = some k → c.unitData = some bs → c.ring < deadRing → k + bs.length = c.len →
      tget [] (unitWritten s p c).host.dma p = (tget [] s.host.dma p).drop 1
        ∧ (unitWritten s p c).host.cpl = s.host.cpl ++ [⟨c.ring, kDone, stOk, 0, c.tag, c.len, 0, 1, [], [], none⟩])
    ∧ (∀ k st, c.pos = some k → c.abort = false → c.ring < deadRing →
      tget [] (unitFails s p st).host.dma p = (tget [] s.host.dma p).drop 1
        ∧ (unitFails s p st).host.cpl = s.host.cpl ++ [⟨c.ring, kDone, st, 0, c.tag, k, 0, 1, [], [], none⟩])

/-- COMPLETION_WRITE, MSIX_COALESCE and HOST_READ_COMPLETION (R250, R251, R255, R262). What the manual leaves open
here follows the model's own choices, log entries 2, 8 and 114. -/
def Obligations.Completions : Prop :=
  ∀ s : State,
    (s.host.cpl = [] → exec .completionWrite s = .next s)
    ∧ (∀ c rest r f a bs, s.host.cpl = c :: rest → hostReached s (ringPart c.ring) = true → r = ringOf s c.ring →
        f = fnOf s (ringPart c.ring) → c.writes = [] → c.takes = [] → c.place = none → r.state = .running → sinkOn s = false →
        fld r.cfg.toNat 175 172 ≤ 12 → a = fld r.cfg.toNat 127 64 + 16 * (r.cqTail % r.cqN) → bs = leBytes 16 (cplBits r c) →
        ∃ t, exec .completionWrite s = .next t
      ∧ fld (cplBits r c) 127 64 = c.value % 2 ^ 64 ∧ fld (cplBits r c) 63 48 = c.tag.toNat
      ∧ bit (cplBits r c) 0 = (r.cqTail < r.cqN : Bool)
      ∧ t.host.cpl = rest ∧ (ringOf t c.ring).cqTail = (r.cqTail + 1) % (2 * r.cqN)
      ∧ (ringOf t c.ring).reserved = r.reserved - c.release ∧ s.outs ++ [.hostWrite a bs] <+: t.outs
      ∧ (r.coal = 0 → msixOpen s (ringPart c.ring) r.vec = true →
          t.outs = s.outs ++ [.hostWrite a bs, .msix (ringPart c.ring) r.vec (tget 0 f.msixTable r.vec)])
      ∧ (r.coal = 0 → msixOpen s (ringPart c.ring) r.vec = false →
          t.outs = s.outs ++ [.hostWrite a bs] ∧ fnOf t (ringPart c.ring) = { f with pba := sins r.vec f.pba })
      ∧ (r.coal ≠ 0 → (ringOf t c.ring).unsignalled = some (r.unsignalled.getD s.clk.f1))
      ∧ (∀ g, g ≠ c.ring → ringOf t g = ringOf s g) ∧ { t with host := s.host, outs := s.outs } = s)
    ∧ (∀ g t0 fn f r, r = ringOf s g → fn = ringPart g → f = fnOf s fn → r.unsignalled = some t0 →
      (passed s t0 (r.coal * 600) = false → exec (.msixCoalesce g) s = .next s)
      ∧ (passed s t0 (r.coal * 600) = true → ∃ t, exec (.msixCoalesce g) s = .next t ∧ (ringOf t g).unsignalled = none
        ∧ (msixOpen s fn r.vec = true → t.outs = s.outs ++ [.msix fn r.vec (tget 0 f.msixTable r.vec)])
        ∧ (msixOpen s fn r.vec = false → fnOf t fn = { f with pba := sins r.vec f.pba } ∧ t.outs = s.outs)
        ∧ { t with host := s.host, outs := s.outs } = s))
    ∧ (∀ r rest tid x, pick (·.id == r.id) s.host.reads = some (r, rest) → r.what = .src tid → xferOf s tid = some x →
      (∀ bs, bs ≠ [] → bs.length = r.len → x.spill = [] → ∃ t, exec (.hostReadCompletion r.id (.data bs)) s = .next t
        ∧ t.host.reads = rest ∧ xferOf t tid = some { x with data := some (r.got ++ bs), reader := none }
        ∧ { t with host := s.host, qe := s.qe } = s)
      ∧ (∀ bs, bs ≠ [] → bs.length < r.len → ∃ t, exec (.hostReadCompletion r.id (.data bs)) s = .next t
        ∧ (∃ y ∈ t.host.reads, y.id = r.id ∧ y.addr = r.addr + bs.length ∧ y.len = r.len - bs.length ∧ y.got = r.got ++ bs)
        ∧ { t with host := s.host } = s)
      ∧ (∀ why, ∃ t y, exec (.hostReadCompletion r.id (.failed why)) s = .next t ∧ t.host.reads = rest
        ∧ xferOf t tid = some y ∧ y.srcFail = some stUe ∧ (∀ l ∈ y.legs, l.cls ≠ 1 → l.ending ≠ .running)
        ∧ (∀ b, aerBit why = some b → 1619 ∈ t.ev.pending
          ∧ (fnOf t x.sub.part).aer = (fnOf s x.sub.part).aer ||| BitVec.ofNat 32 (2 ^ b))
        ∧ (aerBit why = none → t.host.fns = s.host.fns ∧ t.ev = s.ev)))

/-- SEG_CTL_WRITE, BEACON, BEACON_RECEIVED, BEACONERR and TO_TIMER (R264, R265, R271, R280, R282).
TRANSMIT_OPPORTUNITY and CSMA_ATTEMPT: one transmission of a frame, good, in collision, or with TX_ERR (R263, R275,
R277, R278). What the manual leaves open here follows the model's own choices, log entries 2, 64 and 65. -/
def Obligations.SegmentCycles : Prop :=
  (∀ (s : State) (k : Nat), k < 192 →
    (∀ v (val : Word), s.commitsTo (.segCtlWrite v k val) v .segCtl k val.toNat fun u =>
        segCtl u k = val.toNat / 4 * 4
          ∧ (val.toNat / 4 ≠ segCtl s k / 4 → segOf u k = { segOf s k with
              state := .off, node := 64, oppBytes := 0, oppFrames := 0, cycleStart := none, lastBeacon := s.clk.f1,
              lost := false, onMedium := none })
          ∧ (val.toNat / 4 = segCtl s k / 4 → segOf u k = segOf s k)
          ∧ (∀ j, j ≠ k → segOf u j = segOf s j ∧ segCtl u j = segCtl s j)
          ∧ { u with regs := s.regs, seg := s.seg, jrn := s.jrn } = s)
    ∧ (∀ v (val : Word), s.takes v .segCtl k val.toNat → (2 ≤ fld val.toNat 15 14 → fld val.toNat 13 8 ≠ 0)
        ∧ (fld val.toNat 15 14 = 3 → 1 ≤ fld val.toNat 7 2 ∧ fld val.toNat 7 2 ≤ fld val.toNat 13 8)
        ∧ (bookedOn s k = true → val.toNat / 4 = segCtl s k / 4))
    ∧ (segState s k = .active → segRole s k = 2 → segNcm1 s k < (segOf s k).node → ∃ t c, exec (.beacon k) s = .next t
        ∧ segOf t k = { segOf s k with
            node := 0, oppStart := sysNow s, oppBytes := 0, oppFrames := 0, cycleStart := some s.clk.f1, cnt := c }
        ∧ (∀ j, j ≠ 15 → tget 0 c j = segCnt s k j)
        ∧ ((segOf s k).cycleStart = none → tget 0 c 15 = segCnt s k 15)
        ∧ (∀ f, (segOf s k).cycleStart = some f →
            tget 0 c 15 = max (segCnt s k 15) (sat 16 (cdiv (s.clk.f1 - f) 600)))
        ∧ t.outs = s.outs ++ [.segBeacon k] ∧ (∀ j, j ≠ k → segOf t j = segOf s j)
        ∧ { t with seg := s.seg, outs := s.outs } = s)
    ∧ (segState s k ≠ .active ∨ segRole s k ≠ 2 ∨ (segOf s k).node ≤ segNcm1 s k → exec (.beacon k) s = .next s)
    ∧ (segOn s k = true → segRole s k = 3 → ∃ t c, exec (.beaconReceived k) s = .next t
        ∧ segOf t k = { segOf s k with
            state := .active, lost := false, lastBeacon := s.clk.f1, node := 0, oppStart := sysNow s, oppBytes := 0,
            oppFrames := 0, cycleStart := some s.clk.f1, cnt := c }
        ∧ (∀ j, j ≠ 15 → tget 0 c j = segCnt s k j) ∧ (∀ j, j ≠ k → segOf t j = segOf s j)
        ∧ ((segOf s k).lost = true → SegTold s k 9 t) ∧ ((segOf s k).lost = false → t.regs = s.regs ∧ t.ev = s.ev)
        ∧ { t with seg := s.seg, regs := s.regs, ev := s.ev, outs := s.outs } = s)
    ∧ (segOn s k = true → segRole s k = 3 → (segOf s k).lost = false →
        passed s (max (segOf s k).lastBeacon s.runSince) 240000 = true → ∃ t c, exec (.beaconerr k) s = .next t
        ∧ segOf t k = { segOf s k with state := .fallback, lost := true, node := 64, cycleStart := none, cnt := c }
        ∧ tget 0 c 11 = sat 16 (segCnt s k 11 + 1) ∧ (∀ j, j ≠ 11 → tget 0 c j = segCnt s k j) ∧ SegTold s k 10 t
        ∧ t.qe.xfers = (segFact s k .partnerAbsent).qe.xfers
        ∧ { t with seg := s.seg, regs := s.regs, ev := s.ev, outs := s.outs, qe := s.qe } = s)
    ∧ ((segOf s k).lost = true ∨ passed s (max (segOf s k).lastBeacon s.runSince) 240000 = false → exec (.beaconerr k) s = .next s)
    ∧ (segState s k = .active → (segOf s k).node ≤ segNcm1 s k → ∃ t, exec (.toTimer k) s = .next t
        ∧ segOf t k = { segOf s k with
            node := if (segOf s k).node = segNcm1 s k then 64 else (segOf s k).node + 1,
            oppStart := sysNow s, oppBytes := 0, oppFrames := 0 }
        ∧ (∀ j, j ≠ k → segOf t j = segOf s j) ∧ { t with seg := s.seg } = s))
  ∧ (∀ (s : State) (k : Nat) (f : TxResult → Instr) (x : Xfer) (l : Leg), k < 192 → segSends s k f x l →
    x ∈ s.qe.xfers → (∀ y ∈ s.qe.xfers, y.tid = x.tid → y = x) → l ∈ x.legs → (∀ m ∈ x.legs, m.idx = l.idx → m = l) →
    (∃ t, exec (f .good) s = .next t ∧ s.outs ++ [.segFrame k (frameOf x)] <+: t.outs
      ∧ (∀ y ∈ t.qe.xfers, y.tid = x.tid → ∀ m ∈ y.legs, m.idx = l.idx → m.left = 0 ∧ m.booked = []
          ∧ (l.ending = .running → m.ending = .delivered))
      ∧ (l.ending = .running → (queueOf t l.qid).cnt.delivered = sat 32 ((queueOf s l.qid).cnt.delivered + l.left))
      ∧ (l.ending ≠ .running → (queueOf t l.qid).cnt.lateCells = sat 16 ((queueOf s l.qid).cnt.lateCells + l.left))
      ∧ (l.deliverAs = 2 → (queueOf t l.qid).tokens = (queueOf s l.qid).tokens - 1000 * l.left)
      ∧ (∀ q, q ≠ l.qid → queueOf t q = queueOf s q) ∧ segCnt t k 12 = sat 16 (segCnt s k 12 + 1)
      ∧ (l.attempts > 0 → segCnt t k 10 = sat 16 (segCnt s k 10 + 1))
      ∧ (segState s k = .active → (segOf t k).oppBytes = (segOf s k).oppBytes + wireOf x
          ∧ (segOf t k).oppFrames = (segOf s k).oppFrames + 1)
      ∧ (segState s k ≠ .active → (segOf t k).oppBytes = (segOf s k).oppBytes)
      ∧ t.regs = s.regs ∧ t.fab = s.fab ∧ t.bank = s.bank ∧ t.alm = s.alm)
    ∧ (∀ res, res ≠ .good → ∃ t, exec (f res) s = .next t
      ∧ (l.deliverAs = 1 ∨ l.attempts + 1 < 16 → ∃ y ∈ t.qe.xfers, y.tid = x.tid ∧ ∃ m ∈ y.legs, m.idx = l.idx
          ∧ m.attempts = l.attempts + 1 ∧ m.left = l.left ∧ m.ending = l.ending
          ∧ (windowOpen s k l = true → segState s k = .active → res ≠ .cut →
              m.facts = l.facts ++ [if res = .coll then .stranger else .medium]))
      ∧ (l.deliverAs ≠ 1 → 15 ≤ l.attempts → ∀ y ∈ t.qe.xfers, y.tid = x.tid → ∀ m ∈ y.legs, m.idx = l.idx →
          m.left = 0 ∧ (l.ending = .running → m.ending = .failed stAborted 1))
      ∧ (res = .coll → segCnt t k 4 = sat 16 (segCnt s k 4 + 1)
          ∧ (segState s k = .active → segCnt t k 7 = sat 16 (segCnt s k 7 + 1) ∧ SegTold s k 14 t)
          ∧ (segState s k ≠ .active → segCnt t k 7 = segCnt s k 7))
      ∧ (res = .txerr → segCnt t k 9 = sat 16 (segCnt s k 9 + 1) ∧ SegTold s k 8 t)
      ∧ (res = .cut → (∀ j, j ≠ 10 → segCnt t k j = segCnt s k j) ∧ t.regs = s.regs)
      ∧ (segState s k = .active → (segOf t k).oppFrames = 256)
      ∧ (∀ q, q ≠ l.qid → queueOf t q = queueOf s q) ∧ t.fab = s.fab ∧ t.bank = s.bank ∧ t.alm = s.alm))

/-- SEG_FRAME_RECEIVED: what a port does with what the medium carries (R268, R270, R271, R272, R275, R277, R279,
Table 12-3). ROSTER_COMMIT and NODE_ABSENT (R269, R270, R279). What the manual leaves open here follows the model's
own choices, log entries 2 and 65. -/
def Obligations.SegmentReceptions : Prop :=
  (∀ (s : State) (k : Nat), k < 192 →
    (∀ ev, segState s k = .off → exec (.segFrameReceived k ev) s = .next s)
    ∧ (∀ mac, segState s k ≠ .off → ∃ t, exec (.segFrameReceived k (.begins mac)) s = .next t
        ∧ segOf t k = { segOf s k with onMedium := some mac } ∧ (∀ j, j ≠ k → segOf t j = segOf s j)
        ∧ { t with seg := s.seg } = s)
    ∧ (∀ bs mac roster own, segState s k ≠ .off → 60 ≤ bs.length → bs.length ≤ 1518 → mac = beVal ((bs.drop 6).take 6) →
        roster = rosterAt s k (s.clk.f1 - frameCycles bs.length) →
        own = (segState s k == .active && (segOf s k).node == ownNode s k) →
      (∀ r, roster.find? (fun r => rMac r == mac) = some r →
          segState s k ≠ .active ∨ (own = false ∧ rNode r = (segOf s k).node
            ∧ (segOf s k).oppBytes + wireSize bs.length ≤ rMaxb r) →
        ∃ t, exec (.segFrameReceived k (.frame bs)) s = .next t ∧ segCnt t k 13 = sat 16 (segCnt s k 13 + 1)
          ∧ tget 0 (segOf t k).heard (rNode r) = s.clk.f1 ∧ rNode r ∉ (segOf t k).absent ∧ (segOf t k).onMedium = none
          ∧ (segOf t k).oppBytes = (segOf s k).oppBytes + wireSize bs.length
          ∧ (rRxen r = false → t.qe = s.qe)
          ∧ (rRxen r = true → ∃ y, t.qe.xfers = s.qe.xfers ++ [y] ∧ y.sub =
              ⟨.seg k, segPart s k, rRxq r, 0, bs.length - 1, 0, 0, bs⟩)
          ∧ (rNode r ∉ (segOf s k).absent → t.regs = s.regs ∧ t.ev = s.ev)
          ∧ (rNode r ∈ (segOf s k).absent → SegTold s k 11 t)
          ∧ { t with seg := s.seg, qe := s.qe, regs := s.regs, ev := s.ev, outs := s.outs } = s)
      ∧ (∀ r, roster.find? (fun r => rMac r == mac) = some r → segState s k = .active →
        (own = true ∨ rNode r ≠ (segOf s k).node → ∃ t, exec (.segFrameReceived k (.frame bs)) s = .next t
          ∧ segCnt t k 7 = sat 16 (segCnt s k 7 + 1) ∧ SegTold s k 14 t
          ∧ (own = true → (segOf t k).oppBytes = (segOf s k).oppBytes))
        ∧ (own = false → rNode r = (segOf s k).node →
            rMaxb r < (segOf s k).oppBytes + wireSize bs.length → ∃ t, exec (.segFrameReceived k (.frame bs)) s = .next t
          ∧ segCnt t k 8 = sat 16 (segCnt s k 8 + 1) ∧ SegTold s k 13 t))
      ∧ (roster.find? (fun r => rMac r == mac) = none → ∃ t, exec (.segFrameReceived k (.frame bs)) s = .next t
          ∧ (segOf t k).stranger = ⟨BitVec.ofNat 48 mac, (segOf s k).node % 64, !(segState s k == .active),
              sysNow s - 800 * (max bs.length 60 + 12)⟩
          ∧ segCnt t k 6 = sat 16 (segCnt s k 6 + 1) ∧ SegTold s k 15 t ∧ t.qe.xfers.length = s.qe.xfers.length
          ∧ (own = true → segCnt t k 7 = sat 16 (segCnt s k 7 + 1))
          ∧ (segState s k ≠ .active → segCnt t k 7 = segCnt s k 7 ∧ t.qe = s.qe)))
    ∧ (∀ bs, segState s k = .active → bs.length < 60 ∨ 1518 < bs.length →
      ((segOf s k).node = ownNode s k → ∃ t, exec (.segFrameReceived k (.frame bs)) s = .next t
        ∧ segCnt t k 7 = sat 16 (segCnt s k 7 + 1) ∧ SegTold s k 14 t ∧ segCnt t k 13 = segCnt s k 13)
      ∧ ((segOf s k).node ≠ ownNode s k → ∃ t, exec (.segFrameReceived k (.frame bs)) s = .next t
        ∧ segOf t k = { segOf s k with onMedium := none } ∧ { t with seg := s.seg } = s))
    ∧ (segState s k ≠ .off →
      (∃ t, exec (.segFrameReceived k .collision) s = .next t ∧ segCnt t k 4 = sat 16 (segCnt s k 4 + 1)
        ∧ (segState s k = .active → segCnt t k 7 = sat 16 (segCnt s k 7 + 1)) ∧ (segState s k ≠ .active → t.qe = s.qe))
      ∧ (∀ ev j, (ev, j) ∈ ([(.symErr, 0), (.falseCar, 1), (.jabber, 2), (.badFcs, 5), (.lateCol, 3)] : List (MediumEvent × Nat)) →
        ∃ t, exec (.segFrameReceived k ev) s = .next t ∧ segCnt t k j = sat 16 (segCnt s k j + 1) ∧ SegTold s k 8 t
          ∧ t.qe.xfers.length = s.qe.xfers.length)))
  ∧ (∀ s : State,
    (∀ v (val : Word) k e r, k = fld val.toNat 13 6 → e = fld val.toNat 5 0 → r = stagedEntry s v →
      s.commitsTo (.rosterCommit v val) v .segRsel 0 val.toNat fun u =>
        rosterEntry u k e = r ∧ (∀ k' e', e' < 64 → (k', e') ≠ (k, e) → rosterEntry u k' e' = rosterEntry s k' e')
          ∧ tget 0 (segOf u k).heard (rNode r) = s.clk.f1 ∧ rNode r ∉ (segOf u k).absent
          ∧ (∀ f e', e' < 64 → s.clk.f1 - frameCycles 1518 ≤ f → f < s.clk.f1 → rosterEntryAt u k e' f = rosterEntryAt s k e' f)
          ∧ (∀ j, j ≠ k → segOf u j = segOf s j) ∧ { u with roster := s.roster, seg := s.seg, jrn := s.jrn } = s)
    ∧ (∀ v (val : Word), s.takes v .segRsel 0 val.toNat → fld val.toNat 13 6 < 192
        ∧ segPart s (fld val.toNat 13 6) = viewPart s v)
    ∧ (∀ k e r, e < 64 → r = rosterEntry s k e → segOn s k = true → rValid r = true → 0 < rMaxb r → 0 < segAbs s k →
        rNode r ∉ (segOf s k).absent →
      (passed s (max (tget 0 (segOf s k).heard (rNode r)) s.runSince) (segAbs s k * 600000) = true →
        ∃ t, exec (.nodeAbsent k e) s = .next t ∧ rNode r ∈ (segOf t k).absent ∧ SegTold s k 12 t
          ∧ (∀ n, n ≠ rNode r → (n ∈ (segOf t k).absent ↔ n ∈ (segOf s k).absent))
          ∧ { t with seg := s.seg, regs := s.regs, ev := s.ev, outs := s.outs } = s)
      ∧ (passed s (max (tget 0 (segOf s k).heard (rNode r)) s.runSince) (segAbs s k * 600000) = false →
        exec (.nodeAbsent k e) s = .next s)))

/-- SLOT_BLOCK_RECEIVED, LINK_CELL_RECEIVED, LINK_ENABLE and LINK_DISABLE (R286 to R289, R294, R299). What the
manual leaves open here follows the model's own choices, log entries 2, 66 and 111. -/
def Obligations.LinkTraffic : Prop :=
  ∀ (s : State) (k : Nat), k < 8 →
    (∀ b c r, linkState s k = .off ∨ linkState s k = .error ∨ slotCrcGood b = false →
        exec (.slotBlockReceived k b c r) s = .next s)
    ∧ (∀ b c r, linkState s k ≠ .off → linkState s k ≠ .error → slotCrcGood b = true →
      (fld b.toNat 55 44 = devid s → ∃ t, exec (.slotBlockReceived k b c r) s = .next t
        ∧ linkOf t k = { linkOf s k with state := .error } ∧ LinkTold s k 11 t
        ∧ (∀ j, j ≠ k → linkOf t j = linkOf s j) ∧ (s.timeSrc ≠ some k → OnlyLink s k t))
      ∧ (fld b.toNat 55 44 ≠ devid s → ctrlCrcGood c = false → exec (.slotBlockReceived k b c r) s = .next (setLink s k fun l =>
          { l with lastValid := some s.clk.f1, slotNo := some (fld b.toNat 28 8), pDevid := fld b.toNat 55 44, pState := fld b.toNat 43 41,
                   rOwn := r - (fld b.toNat 40 29 : Nat) }))
      ∧ (fld b.toNat 55 44 ≠ devid s → ctrlCrcGood c = true → ∃ t l, exec (.slotBlockReceived k b c r) s = .next t
        ∧ l = linkOf t k ∧ l.lastValid = some s.clk.f1 ∧ l.slotNo = some (fld b.toNat 28 8)
        ∧ l.slotSys = some (ctrlField c 0 8) ∧ l.pInc = BitVec.ofNat 32 (ctrlField c 16 4) ∧ l.pDevid = fld b.toNat 55 44 ∧ l.pState = fld b.toNat 43 41
        ∧ l.rOwn = r - (fld b.toNat 40 29 : Nat) ∧ l.pSys = ctrlField c 0 8 ∧ l.pGmid = ctrlField c 12 2 % 4096
        ∧ l.pHops = ctrlField c 14 1
        ∧ l.eps = (sgn 32 (ctrlField c 8 4) - l.rOwn + lnkAsym s k) / 2
        ∧ l.delay = (l.rOwn + sgn 32 (ctrlField c 8 4) + lnkAsym s k) / 2
        ∧ l.state = (linkOf s k).state ∧ OnlyLink s k t
        ∧ (linkState s k = .up → l.rxSeq = some (BitVec.ofNat 32 (ctrlField c 24 4))
          ∧ (∀ e, (linkOf s k).rxSeq = some e → e ≠ BitVec.ofNat 32 (ctrlField c 24 4) → l.rxOpen = [] ∧ LinkTold s k 10 t
            ∧ tget 0 l.cnt 4 = sat 16 (lnkCnt s k 4 + (BitVec.ofNat 32 (ctrlField c 24 4) - e).toNat)))))
    ∧ (∀ (m : BitVec 56) (cell : List Byte), linkState s k ≠ .up ∨ m.getLsbD 55 = false ∨ cell.length ≠ 256 →
        exec (.linkCellReceived k m cell) s = .next s)
    ∧ (∀ (m : BitVec 56) (cell : List Byte) q, linkState s k = .up → m.getLsbD 55 = true → cell.length = 256 →
        q = fld m.toNat 46 27 →
      ((crc16 cell).toNat ≠ fld m.toNat 15 0 → ∃ t, exec (.linkCellReceived k m cell) s = .next t
        ∧ (∀ o ∈ (linkOf t k).rxOpen, o.qid ≠ q) ∧ lnkCnt t k 0 = sat 16 (lnkCnt s k 0 + 1) ∧ LinkTold s k 10 t
        ∧ OnlyLink s k t)
      ∧ ((crc16 cell).toNat = fld m.toNat 15 0 →
        (m.getLsbD 54 = true → (∀ o ∈ (linkOf s k).rxOpen, o.qid ≠ q) → m.getLsbD 53 = false →
          ∃ t, exec (.linkCellReceived k m cell) s = .next t ∧ OnlyLink s k t
            ∧ (linkOf t k).rxOpen = (linkOf s k).rxOpen ++ [⟨q, fld m.toNat 51 47, cell⟩])
        ∧ (m.getLsbD 54 = true → (∃ o ∈ (linkOf s k).rxOpen, o.qid = q) → ∃ t, exec (.linkCellReceived k m cell) s = .next t
            ∧ lnkCnt t k 0 = sat 16 (lnkCnt s k 0 + 1) ∧ LinkTold s k 10 t)
        ∧ (m.getLsbD 54 = false → m.getLsbD 53 = false → ∀ o, (linkOf s k).rxOpen.find? (·.qid == q) = some o →
          ∃ t, exec (.linkCellReceived k m cell) s = .next t ∧ OnlyLink s k t
            ∧ (linkOf t k).rxOpen = (linkOf s k).rxOpen.filter (·.qid != q) ++ [⟨o.qid, o.hop, o.bytes ++ cell⟩])
        ∧ (m.getLsbD 54 = false → (∀ o ∈ (linkOf s k).rxOpen, o.qid ≠ q) → ∃ t,
          exec (.linkCellReceived k m cell) s = .next t ∧ OnlyLink s k t ∧ (linkOf t k).rxOpen = (linkOf s k).rxOpen
            ∧ (linkOf t k).rxSeq = (linkOf s k).rxSeq.map (· + 1))
        ∧ (∀ hop bs, m.getLsbD 53 = true →
            (m.getLsbD 54 = true ∧ (∀ o ∈ (linkOf s k).rxOpen, o.qid ≠ q) ∧ hop = fld m.toNat 51 47
                ∧ bs = cell.take (fld m.toNat 26 19 + 1))
              ∨ (m.getLsbD 54 = false ∧ ∃ o, (linkOf s k).rxOpen.find? (·.qid == q) = some o ∧ hop = o.hop
                ∧ bs = o.bytes ++ cell.take (fld m.toNat 26 19 + 1)) →
          ∃ t, exec (.linkCellReceived k m cell) s = .next t ∧ (∀ o ∈ (linkOf t k).rxOpen, o.qid ≠ q)
            ∧ (timShare s k (qidPart s q) = 0 → t.qe = s.qe ∧ lnkCnt t k 1 = sat 16 (lnkCnt s k 1 + 1))
            ∧ (timShare s k (qidPart s q) ≠ 0 → hop = 31 → 192 ≤ qEgress (qcfg s q) → qEgress (qcfg s q) < 200 →
                t.qe = s.qe ∧ lnkCnt t k 3 = sat 16 (lnkCnt s k 3 + 1) ∧ LinkTold s k 9 t)
            ∧ (timShare s k (qidPart s q) ≠ 0 → hop ≠ 31 ∨ qEgress (qcfg s q) < 192 ∨ 200 ≤ qEgress (qcfg s q) →
                ∃ y, t.qe.xfers = s.qe.xfers ++ [y]
                  ∧ y.sub = ⟨.link k (hop + 1), qidPart s q, q, 0, bs.length - 1, 0, 0, bs⟩))))
    ∧ (∀ v (val : Word), val.getLsbD 15 = true → s.commitsTo (.linkEnable v k val) v .lnkCtl k val.toNat fun u =>
        dev u (0x70100 + 4 * k) 0 = val &&& 0xC000
          ∧ ((dev s (0x70100 + 4 * k) 0).getLsbD 15 = false → linkState u k = (if s.mode.inRun then .train else .off)
            ∧ (linkOf u k).rxOpen = [] ∧ (linkOf u k).lastValid = none ∧ (linkOf u k).stored = (linkOf s k).stored)
          ∧ ((dev s (0x70100 + 4 * k) 0).getLsbD 15 = true → linkOf u k = linkOf s k)
          ∧ (∀ j, j ≠ k → linkOf u j = linkOf s j) ∧ u.qe = s.qe ∧ u.fab = s.fab)
    ∧ (∀ v (val : Word), val.getLsbD 15 = false → s.commitsTo (.linkDisable v k val) v .lnkCtl k val.toNat fun u =>
        dev u (0x70100 + 4 * k) 0 = val &&& 0xC000 ∧ linkState u k = .off ∧ (linkOf u k).stored = (linkOf s k).stored
          ∧ (∀ j, j ≠ k → linkOf u j = linkOf s j) ∧ (s.timeSrc = some k → linkState s k = .up → u.timeSrc ≠ some k)
          ∧ u.qe = s.qe ∧ u.fab = s.fab)
    ∧ (∀ v (val : Word), val.getLsbD 15 = false → s.takes v .lnkCtl k val.toNat → bookedOn s (192 + k) = false)

/-- LANE_LOCK, HELLO, ACK, READY, HANDSHAKE_TIMEOUT, ABSENT, RETRAIN, LOCK_RETURN and RETRY_TIMER (R293 to R298,
Table 13-6, Table 13-7). What the manual leaves open here follows the model's own choices, log entry 2. -/
def Obligations.LinkStates : Prop :=
  ∀ (s : State) (k : Nat) (l : Link), k < 8 → l = linkOf s k →
    (linkState s k = .train → linkHeard s k = true → ∃ t, exec (.laneLock k) s = .next t ∧ OnlyLink s k t
      ∧ linkOf t k = { l with state := .handshake, sentAck := false, gotAck := false, sendReady := false, gotReady := false,
                              afterAbsent := false, hsStart := s.clk.f1, retryAt := none, upAfter := none }
      ∧ t.outs = s.outs ++ [.linkHs k 1 s.flash.inc])
    ∧ (linkState s k = .handshake →
      (∀ inc, ∃ t, exec (.hello k inc) s = .next t ∧ OnlyLink s k t
        ∧ linkOf t k = { l with sentAck := true, pInc := inc, sendReady := l.sendReady || l.gotAck }
        ∧ t.outs = s.outs ++ [.linkHs k 2 inc] ++ (if l.gotAck && !l.sendReady then [.linkHs k 3 s.flash.inc] else []))
      ∧ (∃ t, exec (.ack k s.flash.inc) s = .next t ∧ OnlyLink s k t
        ∧ linkOf t k = { l with gotAck := true, sendReady := l.sendReady || l.sentAck }
        ∧ t.outs = s.outs ++ (if l.sentAck && !l.sendReady then [.linkHs k 3 s.flash.inc] else []))
      ∧ (∀ inc, inc ≠ s.flash.inc → exec (.ack k inc) s = .next s)
      ∧ (∀ inc, l.sendReady = true → l.upAfter = none → l.stored = some inc → ∃ t, exec (.ready k inc) s = .next t
        ∧ OnlyLink s k t ∧ linkOf t k = { l with gotReady := true, pInc := inc, upAfter := some (s.clk.f1 + 9600, false) })
      ∧ (∀ inc, l.sendReady = true → l.upAfter = none → l.stored ≠ some inc → ∃ t, exec (.ready k inc) s = .next t
        ∧ (linkOf t k).stored = some inc ∧ (linkOf t k).upAfter = some (s.clk.f1 + 9600, true) ∧ (linkOf t k).rxOpen = []
        ∧ (linkOf t k).txSeq = 0 ∧ LinkTold s k 13 t
        ∧ (∀ x ∈ t.qe.xfers, ∀ m ∈ x.legs, m.egress = 192 + k → m.left = 0)
        ∧ (∀ j, j ≠ k → linkOf t j = linkOf s j) ∧ t.fab = s.fab ∧ t.bank = s.bank ∧ t.alm = s.alm)
      ∧ (l.afterAbsent = true → l.upAfter = none → passed s l.hsStart 600000 = true →
        ∃ t c, exec (.handshakeTimeout k) s = .next t ∧ OnlyLink s k t ∧ linkOf t k = { l with
            state := .absent, grants := false, retryAt := some (s.clk.f1 + lnkRetry s * 600000), upAfter := none, cnt := c }
          ∧ LinkTold s k 15 t)
      ∧ (passed s l.hsStart 600000 = false → exec (.handshakeTimeout k) s = .next s))
    ∧ (linkState s k ≠ .handshake → ∀ inc, exec (.hello k inc) s = .next s ∧ exec (.ack k inc) s = .next s
        ∧ exec (.ready k inc) s = .next s)
    ∧ ((linkState s k = .up ∧ (linkHeard s k = false ∨ l.pState = 1 ∨ l.pState = 5))
        ∨ (linkState s k = .retrain ∧ linkHeard s k = false) →
      ∃ t c, exec (.absent k) s = .next t ∧ linkOf t k = { l with
          state := .absent, grants := false, retryAt := some (s.clk.f1 + lnkRetry s * 600000), upAfter := none, cnt := c }
        ∧ tget 0 c 6 = sat 16 (lnkCnt s k 6 + 1) ∧ (∀ j, j ≠ 6 → tget 0 c j = lnkCnt s k j) ∧ LinkTold s k 15 t
        ∧ (s.timeSrc ≠ some k → OnlyLink s k t) ∧ (linkState s k = .up → t.timeSrc ≠ some k) ∧ t.qe = s.qe)
    ∧ (linkState s k = .up → linkHeard s k = true → l.pState ≠ 1 → l.pState ≠ 5 → exec (.absent k) s = .next s)
    ∧ (linkState s k = .up → ∃ t c, exec (.retrain k) s = .next t ∧ linkOf t k = { l with state := .retrain, cnt := c }
        ∧ tget 0 c 5 = sat 16 (lnkCnt s k 5 + 1) ∧ LinkTold s k 12 t ∧ t.timeSrc ≠ some k
        ∧ (s.timeSrc ≠ some k → OnlyLink s k t))
    ∧ (linkState s k = .retrain → l.pState = 3 ∨ l.pState = 4 → ∃ t, exec (.lockReturn k) s = .next t ∧ OnlyLink s k t
        ∧ linkOf t k = { l with state := .up, upAfter := none, grants := true, acts := true } ∧ LinkTold s k 14 t)
    ∧ (∀ t0, linkState s k = .absent → l.retryAt = some t0 → t0 ≤ s.clk.f1 →
      (linkHeard s k = true → ∃ t, exec (.retryTimer k) s = .next t ∧ OnlyLink s k t
        ∧ linkOf t k = { l with state := .handshake, sentAck := false, gotAck := false, sendReady := false, gotReady := false,
                                afterAbsent := true, hsStart := s.clk.f1, retryAt := none, upAfter := none }
        ∧ t.outs = s.outs ++ [.linkHs k 1 s.flash.inc])
      ∧ (linkHeard s k = false → exec (.retryTimer k) s = .next
          (setLink s k fun m => { m with retryAt := some (s.clk.f1 + lnkRetry s * 600000) })))
    ∧ (∀ t0, l.retryAt = some t0 → s.clk.f1 < t0 → exec (.retryTimer k) s = .next s)

/-- DRAM_TRAINING, DRAM_REFRESH, DRAM_REQUEST and DRAM_COMPLETION (R204, R205, R301 to R303, R305, R307 to R312,
R320). What the manual leaves open here follows the model's own choices, log entries 2, 8, 31, 42 and 67. -/
def Obligations.DramAccesses : Prop :=
  ∀ (s : State) (mc : Nat) (c : Chan), mc < 2 → c = chanOf s mc →
    (c.ready = false → c.fail = false → s.clk.started = true →
      (∀ g, 16 ≤ g → g ≤ 128 → ∃ t, exec (.dramTraining mc (some g)) s = .next t
        ∧ Raised (setChan s mc { c with ready := true, gib := g }) 1660 t)
      ∧ (∃ t, exec (.dramTraining mc none) s = .next t ∧ Raised (setChan s mc { c with fail := true }) 1660 t))
    ∧ (c.ready = true ∨ c.fail = true → ∀ g, exec (.dramTraining mc g) s = .next s)
    ∧ (c.ready = true → c.selfRefresh = false → s.mode.timeRuns = true →
      ∀ n, n = (if c.lastRefresh = some (s.clk.systime / 1000) then c.refreshes else 0) →
      (scheduledRefresh s mc = false ∨ (refreshSlot s mc = true ∧ n < refreshQuota mc) →
        exec (.dramRefresh mc) s = .next (emit (setChan s mc
          { c with lastRefresh := some (s.clk.systime / 1000), refreshes := n + 1 }) (.refresh mc)))
      ∧ (scheduledRefresh s mc = true → refreshSlot s mc = false ∨ refreshQuota mc ≤ n →
        exec (.dramRefresh mc) s = .next s))
    ∧ (∀ m p acc o, o < 0x4000000000 → o % 0x40000000 + accSize acc ≤ 0x40000000 → dramWindow o / 128 = mc →
      (∀ st, dramRefusal s p o acc = some st → exec (.dramRequest m p (0x4000000000 + o) acc) s = .next
        { s with dram := { s.dram with nextId := s.dram.nextId + 1, done := s.dram.done ++ [⟨s.dram.nextId, st, []⟩] } })
      ∧ (dramRefusal s p o acc = none → ∃ t, exec (.dramRequest m p (0x4000000000 + o) acc) s = .next t
        ∧ ((c.reqs.filter (·.part == p)).length < 64 → (∀ x ∈ c.outside, x.part ≠ p) →
            chanOf t mc = { c with reqs := c.reqs ++ [⟨s.dram.nextId, m, p, o, acc⟩] })
        ∧ (64 ≤ (c.reqs.filter (·.part == p)).length ∨ (∃ x ∈ c.outside, x.part = p) →
            chanOf t mc = { c with outside := c.outside ++ [⟨s.dram.nextId, m, p, o, acc⟩] })
        ∧ t.dram.done = s.dram.done ∧ t.dram.data = s.dram.data ∧ chanOf t (1 - mc) = chanOf s (1 - mc)
        ∧ { t with dram := s.dram } = s)
      ∧ (windowPart s (dramWindow o) ≠ p → dramRefusal s p o acc = some stDenied)
      ∧ (windowPart s (dramWindow o) = p → c.fail = true → dramRefusal s p o acc = some stAbsent)
      ∧ (windowPart s (dramWindow o) = p → c.fail = false → c.ready = false → dramRefusal s p o acc = some stBusy)
      ∧ (dramRefusal s p o acc = none → windowPresent s (dramWindow o) = true ∧ dramWindow o ∉ s.dram.filling
          ∧ ∀ i, i < accSize acc → pageRetired s (o + i) = false))
    ∧ (∀ m p acc o, o < 0x4000000000 → 0x40000000 < o % 0x40000000 + accSize acc → (∀ op x, acc ≠ .amo op x) → ∃ t,
        exec (.dramRequest m p (0x4000000000 + o) acc) s = .next t ∧ t.dram.nextId = s.dram.nextId + 2
          ∧ t.dram.data = s.dram.data ∧ { t with dram := s.dram } = s)
    ∧ (∀ m p acc addr, addr < 0x4000000000 ∨ 0x8000000000 ≤ addr → exec (.dramRequest m p addr acc) s = .next s)
    ∧ (∀ p r rest u, nextPart c = some p → c.selfRefresh = false → maintSlot s mc = false →
        pick (·.part == p) c.reqs = some (r, rest) → u = setChan s mc (chanAdmit { c with reqs := rest, lastPart := p } p) →
      (∀ sense st, dramRefusal u p r.addr r.acc = some st → exec (.dramCompletion mc p sense) s = .next
        { u with dram := { u.dram with done := s.dram.done ++ [⟨r.id, st, []⟩] } })
      ∧ (dramRefusal u p r.addr r.acc = none → blkOf s (r.addr / 64) = .good →
        (∀ n, r.acc = .read n → 1 ≤ n → r.addr % 64 + n ≤ 64 →
          exec (.dramCompletion mc p []) s = .next { u with dram := { u.dram with
            done := s.dram.done ++ [⟨r.id, stOk, getBytes 0 s.dram.data r.addr n⟩] } }
          ∧ (∀ d e sub rank, windowFast s (dramWindow (64 * (r.addr / 64))) = false → ∃ t,
              exec (.dramCompletion mc p [.oneDevice d e sub rank]) s = .next t
              ∧ t.dram.done = s.dram.done ++ [⟨r.id, stOk, getBytes 0 s.dram.data r.addr n⟩] ∧ t.dram.data = s.dram.data)
          ∧ (∀ sub rank, ∃ t, exec (.dramCompletion mc p [.worse sub rank]) s = .next t
              ∧ t.dram.done = s.dram.done ++ [⟨r.id, stUe, []⟩] ∧ t.dram.data = s.dram.data))
        ∧ (∀ n sub rank, r.acc = .read n → 64 < r.addr % 64 + n → blkOf s (r.addr / 64 + 1) = .good → ∃ t,
          exec (.dramCompletion mc p [.clean, .worse sub rank]) s = .next t
          ∧ t.dram.done = s.dram.done ++ [⟨r.id, stUe, []⟩] ∧ t.dram.data = s.dram.data)
        ∧ (∀ bs, r.acc = .write bs → 1 ≤ bs.length → r.addr % 64 + bs.length ≤ 64 → ∃ t,
          exec (.dramCompletion mc p []) s = .next t ∧ t.dram.done = s.dram.done ++ [⟨r.id, stOk, []⟩]
          ∧ (∀ i, i < bs.length → tget 0 t.dram.data (r.addr + i) = nthD 0 bs i)
          ∧ (∀ a, a < r.addr ∨ r.addr + bs.length ≤ a → tget 0 t.dram.data a = tget 0 s.dram.data a)
          ∧ (∀ b, blkOf t b = blkOf s b) ∧ { t with dram := s.dram } = s)
        ∧ (∀ op v old, r.acc = .amo op v → r.addr % 4 = 0 → old = getBytes 0 s.dram.data r.addr 4 → ∃ t,
          exec (.dramCompletion mc p []) s = .next t ∧ t.dram.done = s.dram.done ++ [⟨r.id, stOk, old⟩]
          ∧ getBytes 0 t.dram.data r.addr 4 = leBytes 4 (amoWord op (BitVec.ofNat 32 (leVal old)) v).toNat
          ∧ (∀ a, a < r.addr ∨ r.addr + 4 ≤ a → tget 0 t.dram.data a = tget 0 s.dram.data a)))
      ∧ (dramRefusal u p r.addr r.acc = none → ∀ bs, r.acc = .write bs → bs.length = 64 → r.addr % 64 = 0 → ∃ t,
          exec (.dramCompletion mc p []) s = .next t ∧ blkOf t (r.addr / 64) = .good
          ∧ (∀ b, b ≠ r.addr / 64 → blkOf t b = blkOf s b) ∧ getBytes 0 t.dram.data r.addr 64 = bs
          ∧ t.dram.done = s.dram.done ++ [⟨r.id, stOk, []⟩]))
    ∧ (∀ p sense, nextPart c ≠ some p ∨ c.selfRefresh = true ∨ maintSlot s mc = true → exec (.dramCompletion mc p sense) s = .next s)

/-- WINDOW_FILL, FILL_DONE, SCRUB_VISIT and DEFERRED_START (R121, R205, R304, R313, R314, R320, R322, Table 14-5).
What the manual leaves open here follows the model's own choices, log entries 2, 8, 69 and 70. -/
def Obligations.WindowsAndScrubbing : Prop :=
  ∀ s : State,
    (∀ v w (val : Word), w < 256 → s.commitsTo (.windowFill v w val) v .memWin w val.toNat fun u =>
        dev u (0x80000 + 4 * w) 0 = val &&& 0x400F ∧ (∀ j, j ≠ w → dev u (0x80000 + 4 * j) 0 = dev s (0x80000 + 4 * j) 0)
          ∧ (val &&& 0x400F ≠ dev s (0x80000 + 4 * w) 0 → windowPresent s w = true → w ∈ u.dram.filling)
          ∧ (val &&& 0x400F = dev s (0x80000 + 4 * w) 0 ∨ windowPresent s w = false → u.dram = s.dram)
          ∧ { u with regs := s.regs, jrn := s.jrn, dram := { u.dram with filling := s.dram.filling } } = s)
    ∧ (∀ v w (val : Word), s.takes v .memWin w val.toNat → w ∉ s.dram.filling)
    ∧ (∀ w, w ∈ s.dram.filling → maintMay s (w / 128) = true → ∃ t, exec (.fillDone w) s = .next t ∧ w ∉ t.dram.filling ∧ 1661 ∈ t.ev.pending
        ∧ (∀ b, dramWindow (64 * b) = w → pageRetired s (64 * b) = false → blkOf t b = .poison)
        ∧ (∀ b, dramWindow (64 * b) ≠ w → blkOf t b = blkOf s b)
        ∧ { t with dram := s.dram, ev := s.ev, outs := s.outs } = s)
    ∧ (∀ w, w ∉ s.dram.filling ∨ maintMay s (w / 128) = false → exec (.fillDone w) s = .next s)
    ∧ (∀ k sense onTime x d, k < 5 → scrubOn s k = true → s.clk.started = true → scrubWaits s k = false → scrubDeferred s k = false →
        scrubAccess s k = true → x = scrubberOf s k → d = (scrubSkip s k x.pos).getD 1 → ∃ t, exec (.scrubVisit k sense onTime) s = .next t
      ∧ (scrubberOf t k).pos = (if scrubUnits k ≤ x.pos + d then 0 else x.pos + d)
      ∧ (onTime = false → (scrubberOf t k).lag = true ∧ (x.lag = false → 1659 ∈ t.ev.pending))
      ∧ (onTime = true → x.pos + d < scrubUnits k → (scrubberOf t k).lag = x.lag)
      ∧ (∀ j, j ≠ k → scrubberOf t j = scrubberOf s j)
      ∧ (onTime = true → scrubSkip s k x.pos ≠ none → { t with dram := { t.dram with scr := s.dram.scr } } = s)
      ∧ (sense = [] → k = 0 → scrubSkip s k x.pos = none → (cycleOf s (4 * x.pos / bankSize)).aWrote = [] →
          ∀ a, (bankByte t a).1 = (bankByte s a).1
          ∧ (a / 4 ≠ x.pos → bankByte t a = bankByte s a)
          ∧ (a / 4 = x.pos → (bankByte t a).2 = if (bankByte s a).2 = .ue then .ue else .good))
      ∧ (∀ sub rank, k = 1 → sense = [.worse sub rank] → (queueOf t (x.pos / 3)).bad = true
          ∧ (∀ q, q ≠ x.pos / 3 → queueOf t q = queueOf s q) ∧ t.qe.xfers = s.qe.xfers)
      ∧ t.regs = s.regs ∧ t.fab = s.fab ∧ t.dram.data = s.dram.data)
    ∧ (∀ sense onTime, scrubOn s 0 = true → s.clk.started = true → scrubWaits s 0 = false → scrubDeferred s 0 = true → ∃ t,
        exec (.scrubVisit 0 sense onTime) s = .next t ∧ .scrub 0 sense ∈ t.dram.deferred
          ∧ { t with dram := { t.dram with deferred := s.dram.deferred } } = s)
    ∧ (∀ k sense onTime, scrubOn s k = false ∨ scrubWaits s k = true ∨ (scrubDeferred s k = false ∧ scrubAccess s k = false) →
        exec (.scrubVisit k sense onTime) s = .next s)
    ∧ (pick (taskFree s) s.dram.deferred = none → exec .deferredStart s = .next s)
    ∧ (∀ rest sense, pick (taskFree s) s.dram.deferred = some (.scrub 0 sense, rest) → ∃ t, exec .deferredStart s = .next t
        ∧ t.dram.deferred = rest ∧ t.regs = s.regs ∧ t.fab = s.fab
        ∧ (scrubSkip s 0 (scrubberOf s 0).pos = none → (scrubberOf s 0).pos + 1 < 12582912 →
            (scrubberOf t 0).pos = (scrubberOf s 0).pos + 1))
    ∧ (∀ rest, pick (taskFree s) s.dram.deferred = some (.flash, rest) → ∃ t, exec .deferredStart s = .next t
        ∧ t.dram.deferred = rest ∧ (chatyNext s = none → t = { s with dram := { s.dram with deferred := rest } }))
    ∧ (∀ rest b bs, pick (taskFree s) s.dram.deferred = some (.quota, rest) → s.flash.pendingBlocks = b :: bs →
        badBlock s (0xB00 + b) = false → ∃ t, exec .deferredStart s = .next t ∧ t.dram.deferred = rest
        ∧ t.flash.op = some (.erase ((0xB00 + b) * 16) 15 none (some b)) ∧ t.flash.data = s.flash.data)
    ∧ (∀ rest, pick (taskFree s) s.dram.deferred = some (.journalErase, rest) → ∃ t, exec .deferredStart s = .next t
        ∧ t.dram.deferred = rest ∧ t.flash.op = some (.erase (0x13000 + s.flash.nextSector) 0 none none)
        ∧ t.flash.data = s.flash.data)

/-- INFO, SENSE, FW_UPDATE, MGMT_TIMEOUT, MGMT_CODE_INVALID and CHATY_RESET (R327, R328, R330, R331, R376). What the
manual leaves open here follows the model's own choices, log entries 2, 8 and 73. -/
def Obligations.ManagementRequests : Prop :=
  ∀ s : State, chatyUp s = true →
    (∀ p m, chatyNext s = some (p, m) → m.working = false → m.bytes = none → s.mgt.serving = none →
      (m.code = 0x0001 → m.reqLen = 0 → 32 ≤ m.rspLen → m.rspLen ≤ 65540 → ∃ t, exec .info s = .next t
        ∧ MgmtEnds s p m stOk (infoBytes s) t ∧ (infoBytes s).length = 32 ∧ OnlyMgmt s t)
      ∧ (m.code = 0x0002 → s.lc.state ≠ .scrap → m.reqLen = 0 → 16 ≤ m.rspLen → m.rspLen ≤ 65540 → ∀ temp power, ∃ t,
        exec (.sense temp power) s = .next t ∧ MgmtEnds s p m stOk (senseBytes s temp power) t ∧ OnlyMgmt s t)
      ∧ (m.code = 0x0002 → s.lc.state = .scrap → ∀ temp power, ∃ t,
        exec (.sense temp power) s = .next t ∧ MgmtEnds s p m stDenied [] t ∧ OnlyMgmt s t)
      ∧ (m.code = 0x0001 → m.reqLen ≠ 0 ∨ m.rspLen < 32 ∨ 65540 < m.rspLen → ∃ t, exec .info s = .next t
        ∧ MgmtEnds s p m stInvalid [] t ∧ OnlyMgmt s t)
      ∧ (m.code = 0x0030 → p = 0 → s.lc.state ≠ .scrap → 1024 ≤ m.reqLen → m.reqLen ≤ 196608 → m.rspLen ≤ 65540 → ∃ t,
        exec .fwUpdate s = .next t ∧ t.mgt.serving = some (p, s.clk.f1)
          ∧ t.host.reads = s.host.reads ++ [⟨s.host.nextRead, .request p, m.reqAddr, m.reqLen, []⟩]
          ∧ t.host.cpl = s.host.cpl ∧ OnlyMgmt s t)
      ∧ (m.code = 0x0030 → p ≠ 0 → ∃ t, exec .fwUpdate s = .next t ∧ MgmtEnds s p m stDenied [] t ∧ OnlyMgmt s t))
    ∧ (∀ p m pkg, InService s p m 0x0030 pkg →
      (Config.packageVersion pkg = none → ∃ t, exec .fwUpdate s = .next t ∧ MgmtEnds s p m stRefused [] t ∧ OnlyMgmt s t)
      ∧ (∀ v w old, Config.packageVersion pkg = some v → s.mgt.stored = some (w, old) → v.toNat < w → ∃ t,
        exec .fwUpdate s = .next t ∧ MgmtEnds s p m stRefused [] t ∧ t.mgt.stored = s.mgt.stored ∧ OnlyMgmt s t)
      ∧ (∀ v, Config.packageVersion pkg = some v → (∀ w old, s.mgt.stored = some (w, old) → w ≤ v.toNat) → s.jrn.intake = [] →
        s.jrn.waiting = [] → ∃ t e, exec .fwUpdate s = .next t ∧ t.jrn.intake = [e] ∧ e.record.kind = 0x12
          ∧ e.changes = [.fwUpdate v.toNat pkg] ∧ t.mgt.stored = s.mgt.stored ∧ t.host = s.host
          ∧ { t with mgt := s.mgt, jrn := s.jrn } = s))
    ∧ (∀ m e v pkg t0, s.clk.started = true → s.mgt.serving = some (0, t0) → openReq s 0 = some m → m.working = true → m.code = 0x0030 →
        s.jrn.intake = [e] → s.jrn.waiting = [] → s.jrn.missedCount = 0 → sinkOn s = false → e.changes = [.fwUpdate v pkg] →
        ∃ t, exec .journalCommit s = .next t ∧ t.mgt.stored = some (v, pkg) ∧ MgmtEnds s 0 m stOk [] t
          ∧ { t with mgt := s.mgt, host := s.host, jrn := s.jrn } = s)
    ∧ (∀ p t0 m, s.mgt.serving = some (p, t0) → openReq s p = some m →
      (passed s t0 600000000 = true → ∃ t, exec .mgmtTimeout s = .next t ∧ MgmtEnds s p m stTimeout [] t ∧ OnlyMgmt s t)
      ∧ (passed s t0 600000000 = false → exec .mgmtTimeout s = .next s))
    ∧ (∀ p m, chatyNext s = some (p, m) →
      (m.code ∉ mgmtCodes → ∃ t, exec .mgmtCodeInvalid s = .next t ∧ MgmtEnds s p m stInvalid [] t ∧ OnlyMgmt s t)
      ∧ (m.code ∈ mgmtCodes → exec .mgmtCodeInvalid s = .next s))
    ∧ (∃ t, exec .chatyReset s = .next t ∧ 1880 ∈ t.ev.pending ∧ t.mgt.restarts = sat 8 (s.mgt.restarts + 1)
        ∧ (∀ p, p < 16 → openReq t p = none) ∧ t.mgt.stored = s.mgt.stored
        ∧ { t with mgt := s.mgt, host := s.host, ev := s.ev, outs := s.outs } = s)

/-- Loads and stores of a hart, FENCE and FENCE.I: HART_LOAD, HART_STORE, STORE_DRAIN, FENCE, FENCE_I (R333 to R337,
R339). LR, SC and AMO of a hart (R337, R339). What the manual leaves open here follows the model's own choices, log
entries 2, 22, 71 and 72. -/
def Obligations.HartMemory : Prop :=
  (∀ (s : State) (h : Nat) (x : Hart), x = hartOf s h → h < 4 →
    (∀ rd (a : BitVec 32) n sg, rd < 32 → accessSize n = true → hartDoes s h (.load rd a n sg) = true →
      (targetOf a.toNat n = .misaligned → ∃ t, exec (.hartLoad h rd a n sg) s = .next t ∧ TrapTaken s h false 4 a t)
      ∧ (targetOf a.toNat n = .outside → ∃ t, exec (.hartLoad h rd a n sg) s = .next t ∧ TrapTaken s h false 5 a t)
      ∧ (∀ off lane, targetOf a.toNat n = .view off lane →
        (x.store ≠ [] → exec (.hartLoad h rd a n sg) s = .next s)
        ∧ (x.store = [] → s.Quiet → busAborts s (.hart h) off = false → (∀ r i stg, findReg off = some (r, i, stg) →
              r.reg ∉ ([.mbxD, .pinSdat, .evtClaim] : List Reg)) →
            exec (.hartLoad h rd a n sg) s = .next (setHart s h
              (x.wrote rd (loadValue n sg ((peek s (.hart h) off).toNat / 2 ^ (8 * lane))))))
        ∧ (x.store = [] → s.Quiet → busAborts s (.hart h) off = true → ∃ t, exec (.hartLoad h rd a n sg) s = .next t
            ∧ TrapTaken (regErr s (.hart h) stAborted) h false 5 a t))
      ∧ (∀ b k, targetOf a.toNat n = .bank b k →
        (∀ bs, bufferedAll x a.toNat n = some bs → exec (.hartLoad h rd a n sg) s = .next (setHart s h
            (x.wrote rd (loadValue n sg (leVal bs)))))
        ∧ (overlaps x a.toNat n = false → bufferedAll x a.toNat n = none → ∃ t, exec (.hartLoad h rd a n sg) s = .next t
            ∧ Awaits s h a (.load rd n sg false) x t)
        ∧ (overlaps x a.toNat n = true → bufferedAll x a.toNat n = none → exec (.hartLoad h rd a n sg) s = .next s)))
    ∧ (∀ (a : BitVec 32) n d, accessSize n = true → hartDoes s h (.store a n d) = true →
      (targetOf a.toNat n = .misaligned → ∃ t, exec (.hartStore h a n d) s = .next t ∧ TrapTaken s h false 6 a t)
      ∧ (targetOf a.toNat n = .outside → ∃ t, exec (.hartStore h a n d) s = .next t ∧ TrapTaken s h false 7 a t)
      ∧ (targetOf a.toNat n ≠ .misaligned → targetOf a.toNat n ≠ .outside →
        (x.store.length < 4 → ∃ r, exec (.hartStore h a n d) s = .next (setHart s h (retire { x with
            store := x.store ++ [⟨a, leBytes n d.toNat, none⟩], reservation := r }))
          ∧ (x.reservation = none → r = none)
          ∧ (∀ w, x.reservation = some w → w.toNat / 4 = a.toNat / 4 → r = none)
          ∧ (∀ w, x.reservation = some w → (∀ i, i < n → (a.toNat + i) / 4 ≠ w.toNat / 4) → r = some w))
        ∧ (4 ≤ x.store.length → exec (.hartStore h a n d) s = .next s)))
    ∧ (∀ e es, x.store = e :: es → e.sent = none → hartRuns s h = true →
      (∀ b k, targetOf e.addr.toNat e.bytes.length = .bank b k → ∃ t, exec (.storeDrain h) s = .next t
        ∧ hartOf t h = { x with store := { e with sent := some s.bank.nextId } :: es }
        ∧ t.bank.nextId = s.bank.nextId + 1 ∧ t.bank.data = s.bank.data
        ∧ (portBRefusal s b (2 + h) (hartPart s h) (.write e.bytes) = none →
            tget [] t.bank.waiting b = tget [] s.bank.waiting b ++
              [⟨s.bank.nextId, 2 + h, hartPart s h, k, .write e.bytes⟩]))
      ∧ (∀ off lane, s.Quiet → targetOf e.addr.toNat e.bytes.length = .view off lane → findReg off = none →
        exec (.storeDrain h) s = .next (setHart s h { x with store := es }))
      ∧ (∀ off lane r i stg, s.Quiet → targetOf e.addr.toNat e.bytes.length = .view off lane →
          findReg off = some (r, i, stg) → visible s (.hart h) r i = true → domainStopped s r.reg.domain = false →
          e.bytes.length < 2 → ∃ t, exec (.storeDrain h) s = .next t ∧ hartOf t h = { x with store := es }
          ∧ (vw t (.hart h) 0x8 0).toNat % 256 = stInvalid))
    ∧ (x.store = [] ∨ (∃ e es n, x.store = e :: es ∧ e.sent = some n) ∨ hartRuns s h = false →
        exec (.storeDrain h) s = .next s)
    ∧ (∀ pred tso, hartDoes s h (.fence pred tso) = true →
      (x.store = [] ∨ (tso = false ∧ pred.getLsbD 0 = false ∧ pred.getLsbD 2 = false) →
        exec (.fence h pred tso) s = .next (setHart s h (retire x)))
      ∧ (x.store ≠ [] → tso = true ∨ pred.getLsbD 0 = true ∨ pred.getLsbD 2 = true →
        exec (.fence h pred tso) s = .next s))
    ∧ (hartDoes s h .fenceI = true → exec (.fenceI h) s = .next (setHart s h { retire x with prefetch := [] })))
  ∧ (∀ (s : State) (h rd : Nat) (a d : BitVec 32) (rl : Bool) (op : AmoOp) (x : Hart), x = hartOf s h → h < 4 → rd < 32 →
    (hartDoes s h (.lr rd a) = true →
      (a.toNat % 4 ≠ 0 → ∃ t, exec (.lr h rd a) s = .next t ∧ TrapTaken s h false 4 a t)
      ∧ (a.toNat % 4 = 0 → bankOf a.toNat = none → ∃ t, exec (.lr h rd a) s = .next t ∧ TrapTaken s h false 5 a t)
      ∧ (∀ b k, a.toNat % 4 = 0 → bankOf a.toNat = some (b, k) →
        (overlaps x a.toNat 4 = true → exec (.lr h rd a) s = .next s)
        ∧ (overlaps x a.toNat 4 = false → ∃ t, exec (.lr h rd a) s = .next t
          ∧ Awaits s h a (.load rd 4 true true) { x with reservation := none } t)))
    ∧ (hartDoes s h (.sc rd a d rl) = true →
      (a.toNat % 4 ≠ 0 → ∃ t, exec (.sc h rd a d rl) s = .next t ∧ TrapTaken s h false 6 a t)
      ∧ (a.toNat % 4 = 0 → bankOf a.toNat = none → ∃ t, exec (.sc h rd a d rl) s = .next t ∧ TrapTaken s h false 7 a t)
      ∧ (∀ b k, a.toNat % 4 = 0 → bankOf a.toNat = some (b, k) →
        (overlaps x a.toNat 4 = true ∨ (rl = true ∧ x.store ≠ []) → exec (.sc h rd a d rl) s = .next s)
        ∧ (overlaps x a.toNat 4 = false → rl = false ∨ x.store = [] →
          (x.reservation = some a → ∃ t, exec (.sc h rd a d rl) s = .next t ∧ Awaits s h a (.sc rd) x t
            ∧ (portBRefusal s b (2 + h) (hartPart s h) (.write (leBytes 4 d.toNat)) = none →
                tget [] t.bank.waiting b = tget [] s.bank.waiting b ++
                  [⟨s.bank.nextId, 2 + h, hartPart s h, k, .write (leBytes 4 d.toNat)⟩]))
          ∧ (x.reservation ≠ some a →
              exec (.sc h rd a d rl) s = .next (setHart s h ({ x with reservation := none }.wrote rd 1))))))
    ∧ (hartDoes s h (.amo rd (AmoOp.code op) a d rl) = true →
      (a.toNat % 4 ≠ 0 → ∃ t, exec (.amo h rd op a d rl) s = .next t ∧ TrapTaken s h false 6 a t)
      ∧ (a.toNat % 4 = 0 → bankOf a.toNat = none → ∃ t, exec (.amo h rd op a d rl) s = .next t ∧ TrapTaken s h false 7 a t)
      ∧ (∀ b k, a.toNat % 4 = 0 → bankOf a.toNat = some (b, k) →
        (overlaps x a.toNat 4 = true ∨ (rl = true ∧ x.store ≠ []) → exec (.amo h rd op a d rl) s = .next s)
        ∧ (overlaps x a.toNat 4 = false → rl = false ∨ x.store = [] → ∃ t r, exec (.amo h rd op a d rl) s = .next t
          ∧ Awaits s h a (.amo rd) { x with reservation := r } t
          ∧ (∀ w, x.reservation = some w → w.toNat / 4 = a.toNat / 4 → r = none)
          ∧ (portBRefusal s b (2 + h) (hartPart s h) (.amo (AmoOp.code op) d) = none →
              tget [] t.bank.waiting b = tget [] s.bank.waiting b ++
                [⟨s.bank.nextId, 2 + h, hartPart s h, k, .amo (AmoOp.code op) d⟩])))))

/-- WFI, HART_TRAP, HART_RUN, RST and EVT_CLAIM, and the instructions of a hart that reach no memory (R332, R335,
R339 to R342, R357, Table 15-2). What the manual leaves open here follows the model's own choices, log entries 2, 71
and 95. -/
def Obligations.HartControl : Prop :=
  ∀ (s : State) (h : Nat) (x : Hart), x = hartOf s h → h < 4 →
    (hartDoes s h .wfi = true →
      (x.store = [] → ∃ t, exec (.wfi h) s = .next t
        ∧ Raised (setHart s h { retire x with state := .wfi }) (1876 + h) t)
      ∧ (x.store ≠ [] → exec (.wfi h) s = .next s))
    ∧ (hartReady s h = true → ∀ code tval, hartException (hartAct s h) = some (code, tval) →
      (code ≠ 1 ∨ x.pc ≠ x.mtvec → ∃ t, exec (.hartTrap h false code tval) s = .next t ∧ TrapTaken s h false code tval t)
      ∧ (code = 1 → x.pc = x.mtvec → ∃ t, exec (.hartTrap h false code tval) s = .next t ∧ HartStops s h tval t))
    ∧ (hartReady s h = true → ∀ code tval, hartInterrupt s h = some code → ∃ t,
        exec (.hartTrap h true code tval) s = .next t ∧ TrapTaken s h true code 0 t)
    ∧ (∀ i code tval, hartReady s h = false ∨ (i = true ∧ hartInterrupt s h ≠ some code)
          ∨ (i = false ∧ hartException (hartAct s h) ≠ some (code, tval)) → exec (.hartTrap h i code tval) s = .next s)
    ∧ ((x.mie = false → hartInterrupt s h = none)
      ∧ (x.mie = true → (hartPending s h).getLsbD 11 = true → hartInterrupt s h = some 11)
      ∧ (x.mie = true → (hartPending s h).getLsbD 11 = false → (hartPending s h).getLsbD 7 = true →
          hartInterrupt s h = some 7))
    ∧ (hartReady s h = false → exec (.wfi h) s = .next s
        ∧ (∀ rd a n sg, exec (.hartLoad h rd a n sg) s = .next s) ∧ (∀ a n d, exec (.hartStore h a n d) s = .next s)
        ∧ (∀ p t, exec (.fence h p t) s = .next s) ∧ exec (.fenceI h) s = .next s
        ∧ (∀ rd a, exec (.lr h rd a) s = .next s) ∧ (∀ rd a d r, exec (.sc h rd a d r) s = .next s)
        ∧ (∀ rd o a d r, exec (.amo h rd o a d r) s = .next s))
    ∧ (∀ w op, codeAt x = .bits w → decodeRv w = (some op, 4) →
      (∀ rd v, op = .lui rd v → rd < 32 → hartAct s h = .plain (x.wrote rd v))
      ∧ (∀ rd off, op = .jal rd off → hartAct s h = .plain (retireTo (setX x rd (x.pc + 4)) (x.pc + off)))
      ∧ (∀ c a b off, op = .branch c a b off → hartAct s h = .plain (retireTo x
          (if cmp c (xreg x a) (xreg x b) then x.pc + off else x.pc + 4)))
      ∧ (∀ rd a b, op = .alu .add rd a (.reg b) → rd < 32 → hartAct s h = .plain (x.wrote rd (xreg x a + xreg x b)))
      ∧ (op = .ecall → hartException (hartAct s h) = some (11, 0))
      ∧ (op = .mret → hartAct s h = .plain (retireTo { x with mie := x.mpie, mpie := true } x.mepc))
      ∧ (∀ f rd num b, op = .csr f rd num b → csrValue s h num = none → hartException (hartAct s h) = some (2, 0))
      ∧ (∀ rd b, op = .csr .write rd 0x305 b → rd < 32 → hartAct s h = .plain
          ({ x with mtvec := wordAddr (srcValue x b) }.wrote rd x.mtvec)))
    ∧ (∀ w n, codeAt x = .bits w → decodeRv w = (none, n) → hartException (hartAct s h) = some (2, 0))
    ∧ (∀ v (val : Word) a, a = (BitVec.ofNat 32 (0x40000000 + val.toNat % 2048 * 32768) : BitVec 32) →
      (val.getLsbD 14 = false → s.commitsTo (.hartRun v h val) v .hrtCtl h val.toNat fun u =>
        hrtCtl u h = val.toNat &&& 0x87FF
          ∧ (val.getLsbD 15 = bit (hrtCtl s h) 15 → hartOf u h = x)
          ∧ (val.getLsbD 15 ≠ bit (hrtCtl s h) 15 → hartOf u h = x.booted a (val.getLsbD 15 && enabled s (hartPart s h)))
          ∧ (∀ g, g < 4 → g ≠ h → hartOf u g = hartOf s g ∧ hrtCtl u g = hrtCtl s g) ∧ u.bank.data = s.bank.data
          ∧ u.fab = s.fab)
      ∧ (val.getLsbD 14 = true → s.commitsTo (.rst v h val) v .hrtCtl h val.toNat fun u =>
        hrtCtl u h = val.toNat &&& 0x87FF
          ∧ hartOf u h = x.booted a (val.getLsbD 15 && enabled s (hartPart s h))
          ∧ (∀ g, g < 4 → g ≠ h → hartOf u g = hartOf s g) ∧ (∀ d ∈ u.bank.done, d.master ≠ 2 + h)
          ∧ u.bank.data = s.bank.data ∧ u.fab = s.fab)
      ∧ (s.takes v .hrtCtl h val.toNat → val.toNat % 2048 < 1536 ∧ bankPart s (val.toNat % 2048) = hartPart s h
          ∧ (bit (hrtCtl s h) 15 = true → val.toNat % 2048 = hrtCtl s h % 2048)))
    ∧ (∀ v r, s.Quiet → regMap.find? (·.reg == .evtClaim) = some r → visible s v r h = true → readsZero s v = false →
        busAborts s v (0xB4010 + 4 * h) = false →
      (hartSources s h = [] → exec (.evtClaim v h) s = .next { s with outs := s.outs ++ [.readData v (0xB4010 + 4 * h) 0] })
      ∧ (∀ n ns, hartSources s h = n :: ns → ∃ t, exec (.evtClaim v h) s = .next t
        ∧ t.outs.getLast? = some (.readData v (0xB4010 + 4 * h) (BitVec.ofNat 16 (0x8000 + n)))
        ∧ (n ∉ s.ev.active → n ∉ t.ev.pending) ∧ (∀ m, m ≠ n → (m ∈ t.ev.pending ↔ m ∈ s.ev.pending))
        ∧ { t with ev := s.ev, outs := s.outs } = s))

/-- PIN_CONFIG_WRITE, SWITCH_EDGE, PIN_SET, PIN_CLR, PIN_TGL, EDGE_COMMIT, TIMED_EDGE_APPLY, PIN_LEVEL_CHANGE,
PIN_TPOP and PATTERN_COMMIT (R346 to R350, R352, R354, Table 16-4). Serial units: SERIAL_CONTROL_WRITE,
SERIAL_BYTE_WRITE, LAST, START, STOP, READ_BYTE, SERIAL_DATA_READ, SERIAL_BYTE_RECEIVED and SERIAL_BYTE_SENT (R351,
Table 16-5). What the manual leaves open here follows the model's own choices, log entries 2, 8, 38, 75, 76 and 77.
-/
def Obligations.PinsAndSerialUnits : Prop :=
  (∀ (s : State) (p : Nat) (x : Pin), p < 256 → x = pinOf s p →
    (∀ v aux (val : Word), s.commitsTo (.pinConfigWrite v p aux val) v (if aux then .pinAux else .pinCfg) p val.toNat fun u =>
        (if aux then pinAuxReg u p = val ∧ pinCfgReg u p = pinCfgReg s p
          else pinCfgReg u p = val ∧ pinAuxReg u p = pinAuxReg s p)
          ∧ pinOf u p = { x with switchAfter := some (s.clk.f1 + 3 - s.clk.f1 % 2) }
          ∧ (∀ q, q ≠ p → pinOf u q = pinOf s q ∧ pinCfgReg u q = pinCfgReg s q ∧ pinAuxReg u q = pinAuxReg s q)
          ∧ { u with regs := s.regs, pins := { u.pins with pin := s.pins.pin }, jrn := s.jrn } = s)
    ∧ (∀ v (val : Word), s.takes v .pinCfg p val.toNat → val.toNat / 4096 ≤ 8 ∧ fld val.toNat 11 9 < 6
        ∧ fld val.toNat 7 6 ≠ 3 ∧ val.toNat % 4 = 0)
    ∧ (∀ a, x.switchAfter = some a → s.clk.started = true → s.mode.busUp = true →
      (s.clk.f1 % 8 = 0 → a ≤ s.clk.f1 → ∃ t, exec (.switchEdge p) s = .next t
        ∧ (pinOf t p).func = cfgFunc (pinCfgReg s p) ∧ (pinOf t p).cfg = pinCfgReg s p ∧ (pinOf t p).aux = pinAuxReg s p
        ∧ (pinOf t p).switchAfter = none ∧ (pinOf t p).level = x.level
        ∧ (cfgFunc (pinCfgReg s p) = 2 → (pinOf t p).kept = some (funcDrive s p))
        ∧ (cfgFunc (pinCfgReg s p) = 0 → (pinOf t p).kept = none)
        ∧ (∀ q, q ≠ p → pinOf t q = pinOf s q)
        ∧ { t with pins := { t.pins with pin := s.pins.pin }, ev := s.ev, outs := s.outs } = s)
      ∧ (s.clk.f1 % 8 ≠ 0 ∨ s.clk.f1 < a → exec (.switchEdge p) s = .next s))
    ∧ (∀ (f : View → Nat → Word → Instr) reg (op : Bool → Bool → Bool) v g (val : Word), g < 16 →
        (f = .pinSet ∧ reg = .pinSet ∧ op = fun o b => o || b) ∨ (f = .pinClr ∧ reg = .pinClr ∧ op = fun o b => o && !b)
          ∨ (f = .pinTgl ∧ reg = .pinTgl ∧ op = fun o b => o ^^ b) →
        s.Quiet → accepts s v reg g val.toNat → ∃ t, exec (f v g val) s = .next t
      ∧ (∀ i, i < 16 → pinPart s (16 * g + i) = viewPart s v →
          pinLatch t (16 * g + i) = op (pinLatch s (16 * g + i)) (val.getLsbD i))
      ∧ (∀ i, i < 16 → pinPart s (16 * g + i) ≠ viewPart s v → pinLatch t (16 * g + i) = pinLatch s (16 * g + i))
      ∧ (∀ off, off ≠ 0xA0C00 + 4 * g → ∀ d, dev t off d = dev s off d) ∧ { t with regs := s.regs } = s)
    ∧ (∀ v (val : Word) t0, p = val.toNat % 256 → s.Quiet → accepts s v .pinTsel 0 val.toNat →
        t0 = (vw s v 0xA0E00 0).toNat + 65536 * (vw s v 0xA0E04 0).toNat + 65536 ^ 2 * (vw s v 0xA0E08 0).toNat
          + 65536 ^ 3 * (vw s v 0xA0E0C 0).toNat →
        exec (.edgeCommit v val) s = .next (setPin s p { x with
            headAt := if x.outFifo = [] then s.clk.f1 else x.headAt
            outFifo := x.outFifo ++ [(t0, val.getLsbD 15, val.getLsbD 14)],
            tlate := x.tlate || (x.outFifo.isEmpty && decide (t0 ≤ sysNow s)) }))
    ∧ (∀ v (val : Word), p = val.toNat % 256 → accepts s v .pinTsel 0 val.toNat → pinPart s p = viewPart s v
        ∧ cfgFunc (pinCfgReg s p) = 2 ∧ x.outFifo.length < 4)
    ∧ (∀ t0 level oe rest, x.outFifo = (t0, level, oe) :: rest → x.func = 2 → pinLive s p = true →
      (t0 ≤ sysNow s → x.headAt < s.clk.f1 → ∃ t late, exec (.timedEdgeApply p) s = .next t
        ∧ pinOf t p = { x with
            outFifo := rest, headAt := s.clk.f1, out := level, oe := oe, kept := none, tlate := late }
        ∧ (x.tlate = true → late = true) ∧ (rest = [] → late = x.tlate ∧ 1232 + p ∈ t.ev.pending)
        ∧ (∀ q, q ≠ p → pinOf t q = pinOf s q)
        ∧ { t with pins := { t.pins with pin := s.pins.pin }, ev := s.ev, outs := s.outs } = s)
      ∧ (sysNow s < t0 ∨ s.clk.f1 ≤ x.headAt → exec (.timedEdgeApply p) s = .next s))
    ∧ (∀ level, ∃ t, exec (.pinLevelChange p level) s = .next t ∧ (pinOf t p).level = level
        ∧ (∀ q, q ≠ p → pinOf t q = pinOf s q) ∧ { t with pins := s.pins, ev := s.ev, outs := s.outs } = s
        ∧ (level = x.level ∨ groupUp s (p / 16) = false → t = setPin s p { x with level := level })
        ∧ (level ≠ x.level → groupUp s (p / 16) = true → (pinOf t p).edge = some level)
        ∧ (level ≠ x.level → pinLive s p = true → x.func = 2 →
            x.aux.toNat % 4 = 3 ∨ x.aux.toNat % 4 = (if level then 1 else 2) →
          (x.inFifo.length < 4 → (pinOf t p).inFifo = x.inFifo ++ [(sysNow s, level)] ∧ 1232 + p ∈ t.ev.pending)
          ∧ (4 ≤ x.inFifo.length → (pinOf t p).inFifo = x.inFifo ∧ (pinOf t p).ovf = true))
        ∧ (level ≠ x.level → pinLive s p = true → x.func = 0 ∨ x.func = 7 →
            fld x.cfg.toNat 11 9 = 3 ∨ fld x.cfg.toNat 11 9 = (if level then 1 else 2) → 1232 + p ∈ t.ev.pending))
    ∧ (∀ v (val : Word), p = val.toNat % 256 → s.Quiet → accepts s v .pinTpop 0 val.toNat →
      (pinPart s p = viewPart s v → exec (.pinTpop v val) s = .next (setPin s p { x with inFifo := x.inFifo.drop 1 }))
      ∧ (pinPart s p ≠ viewPart s v → exec (.pinTpop v val) s = .next s))
    ∧ (∀ v (val : Word) k ws, k = val.toNat % 32 → ws = (List.range 21).map (fun j => vw s v (0xA0E20 + 4 * j) 0) →
      s.commitsTo (.patternCommit v val) v .pinPsel 0 val.toNat fun u =>
        tget [] u.pins.engine k = (if ws.all (· == 0) then [] else ws)
          ∧ (∀ j, j ≠ k → tget [] u.pins.engine j = tget [] s.pins.engine j)
          ∧ (k ∈ u.pins.matching ↔ engineMatch u k = true) ∧ u.pins.pin = s.pins.pin ∧ u.regs = s.regs ∧ u.fab = s.fab))
  ∧ (∀ (s : State) (u : Nat) (x : Serial), u < 32 → x = serialOf s u →
    (∀ v (val : Word), s.commitsTo (.serialControlWrite v u val) v .pinSctl u val.toNat fun w =>
        sctl w u = val.toNat &&& 0x8F00
          ∧ (val.getLsbD 15 = true → serialOn s u = true → serialOf w u = x ∧ w.freeCtr = s.freeCtr)
          ∧ (val.getLsbD 15 = true → serialOn s u = false →
              serialOf w u = { x with free := s.freeCtr } ∧ w.freeCtr = s.freeCtr + 1)
          ∧ (val.getLsbD 15 = false → serialOf w u = { x with tx := [], rx := [], csHeld := false })
          ∧ (∀ j, j ≠ u → serialOf w j = serialOf s j ∧ sctl w j = sctl s j) ∧ w.fab = s.fab ∧ w.qe = s.qe)
    ∧ (∀ v b (val : Word) (nack : Bool) c (w : Nat), (c, w) ∈ ([(.serialByteWrite v u val, val.toNat),
          (.last v u b, 0x100 + b.toNat), (.start v u b, 0x100 + b.toNat), (.stop v u b, 0x200 + b.toNat),
          (.readByte v u nack, if nack then 0xC00 else 0x400)] : List (Instr × Nat)) →
        s.Quiet → accepts s v .pinSdat u w →
        exec c s = .next (setSerial s u { x with tx := x.tx ++ [BitVec.ofNat 16 w] }))
    ∧ (∀ v w, accepts s v .pinSdat u w → x.tx.length < 16)
    ∧ (∀ v r, s.Quiet → regMap.find? (·.reg == .pinSdat) = some r → visible s v r u = true → readsZero s v = false →
      busAborts s v (0xA100C + 16 * u) = false →
      (x.rx = [] → exec (.serialDataRead v u) s = .next { s with outs := s.outs ++ [.readData v (0xA100C + 16 * u) 0] })
      ∧ (∀ b bs, x.rx = b :: bs → ∃ t, exec (.serialDataRead v u) s = .next t ∧ serialOf t u = { x with rx := bs }
        ∧ t.outs = s.outs ++ [.readData v (0xA100C + 16 * u) (BitVec.ofNat 16 (0x8000 + b.toNat))]
        ∧ (∀ j, j ≠ u → serialOf t j = serialOf s j)
        ∧ { t with pins := { t.pins with serial := s.pins.serial }, outs := s.outs } = s))
    ∧ (serialOn s u = true → enabled s (unitPart s u) = true →
      (∀ b err, ∃ t, exec (.serialByteReceived u b err) s = .next t
        ∧ serialOf t u = { x with
            rx := if x.rx.length < 16 then x.rx ++ [b] else x.rx,
            rxovf := x.rxovf || decide (16 ≤ x.rx.length), err := x.err || err }
        ∧ (∀ j, j ≠ u → serialOf t j = serialOf s j)
        ∧ { t with pins := { t.pins with serial := s.pins.serial }, ev := s.ev, outs := s.outs } = s)
      ∧ (∀ w ws err, x.tx = w :: ws → clearToSend s u = true → ∃ t, exec (.serialByteSent u err) s = .next t
        ∧ serialOf t u = { x with
            tx := ws, csHeld := decide (16 ≤ u ∧ u < 24) && !w.getLsbD 8, err := x.err || err }
        ∧ s.outs ++ [.serialByte u w] <+: t.outs ∧ (∀ j, j ≠ u → serialOf t j = serialOf s j)
        ∧ { t with pins := { t.pins with serial := s.pins.serial }, ev := s.ev, outs := s.outs } = s))
    ∧ (serialOn s u = false ∨ enabled s (unitPart s u) = false →
        (∀ b err, exec (.serialByteReceived u b err) s = .next s) ∧ ∀ err, exec (.serialByteSent u err) s = .next s)
    ∧ (x.tx = [] ∨ clearToSend s u = false → ∀ err, exec (.serialByteSent u err) s = .next s))

/-- EVENT_RAISE, EVENT_DELIVERY, EVT_CLR and EVT_RTE_WRITE (R355 to R357). What the manual leaves open here follows
the model's own choices, log entries 2 and 78. -/
def Obligations.EventController : Prop :=
  ∀ (s : State) (n : Nat),
    (reservedSource n = false → mayRaise s n = true → ∃ t, exec (.eventRaise n) s = .next t ∧ Raised s n t
        ∧ t.ev.active = s.ev.active ∧ t.ev.pulses = s.ev.pulses
        ∧ (n ∉ s.ev.pending → t.outs = s.outs ++ (if 1808 ≤ n ∧ n < 1872 then [.chatyDuty n] else [])
          ∧ tget 0 t.ev.padPulse n = pulseFrom (tget 0 s.ev.padPulse n) s.clk.f1))
    ∧ (reservedSource n = true ∨ n ∈ s.ev.pending ∨ mayRaise s n = false → exec (.eventRaise n) s = .next s)
    ∧ (∀ dest tgt, n ∈ s.ev.pending → n ∉ s.ev.active → bit (evtRte s n) 15 = true → dest = fld (evtRte s n) 14 12 →
        tgt = evtRte s n % 4096 →
      (dest = 1 ∨ dest = 3 ∨ dest = 4 → ∃ t, exec (.eventDelivery n) s = .next t ∧ n ∉ t.ev.pending
        ∧ (∀ m, m ≠ n → (m ∈ t.ev.pending ↔ m ∈ s.ev.pending)) ∧ t.ev.active = s.ev.active
        ∧ { t with ev := s.ev, outs := s.outs, host := s.host } = s
        ∧ (dest = 1 → msixOpen s (evtOwner s n) tgt = true → t.host = s.host ∧ t.outs =
            s.outs ++ [.msix (evtOwner s n) tgt (tget 0 (tget {} s.host.fns (evtOwner s n)).msixTable tgt)])
        ∧ (dest = 1 → msixOpen s (evtOwner s n) tgt = false →
            tgt ∈ (tget {} t.host.fns (evtOwner s n)).pba ∧ t.outs = s.outs)
        ∧ (dest = 3 → t.outs = s.outs ++ [.toChaty n] ∧ t.host = s.host)
        ∧ (dest = 4 → (tgt, max (tget 0 s.ev.since n + 4) (s.clk.f1 + 1)) ∈ t.ev.pulses ∧ t.outs = s.outs ∧ t.host = s.host))
      ∧ (dest = 0 ∨ dest = 2 → exec (.eventDelivery n) s = .next s))
    ∧ (n ∈ s.ev.active → n ∈ s.ev.pending → ∃ t, exec (.eventDelivery n) s = .next t ∧ n ∈ t.ev.pending)
    ∧ (n ∉ s.ev.pending ∨ bit (evtRte s n) 15 = false → exec (.eventDelivery n) s = .next s)
    ∧ (∀ v (val : Word), n = val.toNat % 2048 → s.Quiet → accepts s v .evtClr 0 val.toNat →
      (evtOwner s n = viewPart s v → n ∉ s.ev.active → exec (.evtClr v val) s = .next
        { s with ev := { s.ev with pending := sdel n s.ev.pending } })
      ∧ (evtOwner s n = viewPart s v → n ∈ s.ev.active → ∃ t, exec (.evtClr v val) s = .next t
        ∧ (∀ m, m ∈ t.ev.pending ↔ m ∈ s.ev.pending) ∧ { t with ev := s.ev, outs := s.outs } = s)
      ∧ (evtOwner s n ≠ viewPart s v → exec (.evtClr v val) s = .next s))
    ∧ (∀ v (val : Word), n < 2048 → s.commits (.evtRteWrite v n val) v .evtRte n val.toNat fun t => { t with
        ev := if n ∈ s.ev.pending then { s.ev with since := tset 0 s.ev.since n s.clk.f1 } else s.ev
        regs := tset (if 1808 ≤ n ∧ n < 1872 then 0xB000 else 0) t.regs (0xB1000 + n * 4) val })
    ∧ (∀ v (val : Word), s.takes v .evtRte n val.toNat → fld val.toNat 14 12 ≤ 4
        ∧ (fld val.toNat 14 12 = 3 → 1808 ≤ n ∧ n < 1872) ∧ (fld val.toNat 14 12 = 2 → val.toNat % 4096 < 4))

/-- TO_VTEST, TO_SHIPPED, SEAL, UNSEAL, RETURN, SCRAP, BURN_DONE and WIPE_DONE (R378 to R381, R384). What the manual
leaves open here follows the model's own choices, log entries 2, 84 and 86. -/
def Obligations.LifeCycleSteps : Prop :=
  ∀ s : State,
    (∀ st margin p m bs, InService s p m 0x0021 bs → stepOf (leVal bs) = some st →
      (∀ pre q c post, stepChecks s st margin = pre ++ (q, c) :: post → (∀ x ∈ pre, x.1) → ¬ q →
        ∃ t, exec (stepInstr st margin) s = .next t ∧ MgmtEnds s p m stRefused (stepRsp s c) t ∧ OnlyMgmt s t)
      ∧ ((∀ x ∈ stepChecks s st margin, x.1) → s.jrn.intake = [] → s.jrn.waiting = [] →
        ∃ t, exec (stepInstr st margin) s = .next t
          ∧ MgmtJournaled s 0x0B (.lcStep 0 (leVal bs) (stepBurns s st)) t))
    ∧ (∀ p m bs margin, InService s p m 0x0021 bs → stepOf (leVal bs) = none →
        ∃ t, exec (.scrap margin) s = .next t ∧ MgmtEnds s p m stRefused (stepRsp s 1) t ∧ OnlyMgmt s t)
    ∧ (∀ p m margin, chatyUp s = true → chatyNext s = some (p, m) → m.code = 0x0021 → m.working = false → m.bytes = none →
        s.mgt.serving = none → p ≠ 0 → ∀ st, ∃ t, exec (stepInstr st margin) s = .next t ∧ MgmtEnds s p m stDenied [] t ∧ OnlyMgmt s t)
    ∧ (∀ code word, CommitsNext s (.lcStep 0 code word) → ∃ j, exec .journalCommit s = .next { s with
        lc := { s.lc with burn := some (.step word code) }, jrn := j } ∧ oneMore s j)
    ∧ (∀ word code st l, s.lc.burn = some (.step word code) → stepOf code = some st → stepTo st s.lc.state = some l →
        ∃ t, exec .burnDone s = .next t ∧ 1840 ∈ t.ev.pending ∧ tget 0 t.lc.steps word = 0xFFFF
          ∧ (∀ w, w ≠ word → tget 0 t.lc.steps w = tget 0 s.lc.steps w)
          ∧ { t.lc with steps := s.lc.steps } = { s.lc with
              burn := none, state := l, opened := false, chal := none,
              grants := if st = .seal_ then s.lc.grants % 2 else 0, keys := if st = .return_ then [] else s.lc.keys,
              wipe := s.lc.wipe || st == .return_ }
          ∧ WorkEnds s 0x0021 stOk (stepRsp t 0) t
          ∧ { t with lc := s.lc, ev := s.ev, outs := s.outs, mgt := s.mgt, host := s.host } = s)
    ∧ (s.lc.wipe = true → chatyUp s = true → s.clk.started = true →
        ∃ t, exec .wipeDone s = .next t ∧ t.lc = { s.lc with wipe := false } ∧ 1844 ∈ t.ev.pending
          ∧ (∀ a, 0x0B000000 ≤ a → a < 0x13000000 → flByte t a = 0xFF)
          ∧ (∀ a, a < 0x0B000000 ∨ 0x13000000 ≤ a → flByte t a = flByte s a ∧ (a / 2 ∈ t.flash.badWords ↔ a / 2 ∈ s.flash.badWords))
          ∧ (∀ a, 0x0B000000 ≤ a → a < 0x13000000 → a / 2 ∉ t.flash.badWords)
          ∧ (∀ k, halfErased s k = false → sectorStatus t k = sectorStatus s k)
          ∧ ((s.flash.status.map (·.1)).Nodup → ∀ k, 0xB000 ≤ k → k < 0x13000 → halfErased t k = false)
          ∧ { t with lc := s.lc, flash := { t.flash with
                data := s.flash.data, badWords := s.flash.badWords, status := s.flash.status }, ev := s.ev, outs := s.outs } = s)
    ∧ (s.lc.wipe = false → exec .wipeDone s = .next s) ∧ (s.lc.burn = none → exec .burnDone s = .next s)

/-- KEY_WRITE and KEY_CLEAR, DBG_CHAL, DBG_CCMD and CHALLENGE_LAPSE (R382, R386). What the manual leaves open here
follows the model's own choices, log entries 2, 44 and 84. -/
def Obligations.KeysAndChallenges : Prop :=
  ∀ s : State,
    (∀ p m bs slot op cmd, InService s p m 0x0020 bs → slot = leVal (bs.take 1) → op = leVal ((bs.drop 1).take 1) →
      cmd = (if op = 2 then Instr.keyClear else Instr.keyWrite) →
      ((s.lc.state ≠ .shipped ∧ s.lc.state ≠ .sealed) ∨ (s.lc.state = .sealed ∧ op = 1 ∧ slot ≤ 4 ∧ keySlot s slot ≠ []) →
        ∃ t, exec cmd s = .next t ∧ MgmtEnds s p m stDenied [] t ∧ OnlyMgmt s t)
      ∧ (s.lc.state = .shipped ∨ s.lc.state = .sealed → (4 < slot ∨ (op ≠ 1 ∧ op ≠ 2)) →
        ∃ t, exec cmd s = .next t ∧ MgmtEnds s p m stInvalid [] t ∧ OnlyMgmt s t)
      ∧ (s.lc.state = .shipped ∨ (s.lc.state = .sealed ∧ (op = 1 → keySlot s slot = [])) → slot ≤ 4 →
        (op = 1 → slot = 4 → validPoint (keyBytes 4 bs) = false →
          ∃ t, exec cmd s = .next t ∧ MgmtEnds s p m stInvalid [] t ∧ OnlyMgmt s t)
        ∧ (op = 1 → (slot = 4 → validPoint (keyBytes 4 bs) = true) → s.jrn.intake = [] → s.jrn.waiting = [] →
          ∃ t, exec cmd s = .next t
            ∧ MgmtJournaled s 0x0C (.key slot (some (keyBytes slot bs)) (keyCheck slot (keyBytes slot bs))) t)
        ∧ (op = 2 → s.jrn.intake = [] → s.jrn.waiting = [] →
          ∃ t, exec cmd s = .next t ∧ MgmtJournaled s 0x0C (.key slot none 0) t)))
    ∧ (∀ slot k chk, CommitsNext s (.key slot k chk) → ∃ t, exec .journalCommit s = .next t
        ∧ tget [] t.lc.keys slot = k.getD [] ∧ (∀ j, j ≠ slot → tget [] t.lc.keys j = tget [] s.lc.keys j)
        ∧ 1843 ∈ t.ev.pending ∧ WorkEnds s 0x0020 stOk (leBytes 4 chk.toNat) t
        ∧ { t with lc := { t.lc with keys := s.lc.keys }, jrn := s.jrn, ev := s.ev, outs := s.outs, mgt := s.mgt, host := s.host } = s)
    ∧ (∀ p m bs scope, InService s p m 0x0022 bs → scope = leVal bs →
      (s.lc.state = .lost ∨ s.lc.state = .scrap →
        ∃ t, exec .dbgChal s = .next t ∧ MgmtEnds s p m stDenied [] t ∧ OnlyMgmt s t)
      ∧ (s.lc.state ≠ .lost → s.lc.state ≠ .scrap →
        (s.lc.chal ≠ none → ∃ t, exec .dbgChal s = .next t ∧ MgmtEnds s p m stBusy [] t ∧ OnlyMgmt s t)
        ∧ (s.lc.chal = none → scope % 8 = 0 ∨ (scope.testBit 1 = true ∧ testAllowed s = false) →
          ∃ t, exec .dbgChal s = .next t ∧ MgmtEnds s p m stRefused [] t ∧ OnlyMgmt s t)
        ∧ (s.lc.chal = none → scope % 8 ≠ 0 → (scope.testBit 1 = true → testAllowed s = true) →
          (scope.testBit 1 = true → s.lc.state = .raw ∨ s.lc.state = .vtest →
            ∃ t, exec .dbgChal s = .next t ∧ t.mode = .m10 ∧ t.lc = { s.lc with grants := Nat.lor s.lc.grants 2 }
              ∧ MgmtEnds s p m stOk [] t)
          ∧ (scope.testBit 1 = false ∨ (s.lc.state ≠ .raw ∧ s.lc.state ≠ .vtest) → ∀ c : Challenge,
            c = ⟨Config.nonce s.freeCtr, scope % 8, lcStateWord s, s.clk.f1 + 180000000000⟩ →
            ∃ t, exec .dbgChal s = .next t ∧ t.lc = { s.lc with chal := some c } ∧ MgmtEnds s p m stOk (chalBytes c) t
              ∧ { t with lc := s.lc, mgt := s.mgt, host := s.host, freeCtr := s.freeCtr } = s))))
    ∧ (∀ (v : View) (val : Word),
      (s.takes v .dbgCcmd 0 val.toNat → val.getLsbD 15 = true → s.lc.state ≠ .scrap ∧ s.lc.state ≠ .lost ∧ s.lc.chal = none
        ∧ val.toNat % 8 ≠ 0 ∧ (val.getLsbD 1 = true → testAllowed s = true))
      ∧ (val.getLsbD 15 = false → s.commits (.dbgCcmd v val) v .dbgCcmd 0 val.toNat fun t => t)
      ∧ (val.getLsbD 15 = true → val.getLsbD 1 = true → s.lc.state = .raw ∨ s.lc.state = .vtest →
        s.commitsTo (.dbgCcmd v val) v .dbgCcmd 0 val.toNat fun u =>
          u.mode = .m10 ∧ u.last = s.mode ∧ u.lc = { s.lc with grants := Nat.lor s.lc.grants 2 })
      ∧ (val.getLsbD 15 = true → val.getLsbD 1 = false ∨ (s.lc.state ≠ .raw ∧ s.lc.state ≠ .vtest) →
        s.commits (.dbgCcmd v val) v .dbgCcmd 0 val.toNat fun t => { t with
          lc := { t.lc with chal := some ⟨Config.nonce t.freeCtr, val.toNat % 8, lcStateWord t, t.clk.f1 + 180000000000⟩ }
          freeCtr := t.freeCtr + 1 }))
    ∧ (∀ c, s.lc.chal = some c →
      (c.expires ≤ s.clk.f1 → exec .challengeLapse s = .next { s with lc := { s.lc with chal := none } })
      ∧ (s.clk.f1 < c.expires → exec .challengeLapse s = .next s))

/-- DBG_RDAT, GO, CLR, DBG_RESP, RESPONSE_INTAKE, RESPONSE_CHECK, the grants that follow, and OPEN (R385, R387,
R388). What the manual leaves open here follows the model's own choices, log entries 2, 44 and 85. -/
def Obligations.DebugResponses : Prop :=
  ∀ s : State,
    (∀ (v : View) (val : Word), s.Quiet → accepts s v .dbgRdat 0 val.toNat →
      (tget [] s.lc.rbuf (viewCode v)).length < 48 ∧ exec (.dbgRdat v val) s = .next { s with
        lc := { s.lc with rbuf := tset [] s.lc.rbuf (viewCode v) (tget [] s.lc.rbuf (viewCode v) ++ [val]) } })
    ∧ (∀ v, s.Quiet → accepts s v .dbgRcmd 0 0x8000 → exec (.go v) s = .next { s with
        lc := { s.lc with
          rbuf := tset [] s.lc.rbuf (viewCode v) []
          intake := s.lc.intake ++ [(.view v, rspBytes (tget [] s.lc.rbuf (viewCode v)))]
          stat := tset {} s.lc.stat (viewCode v) ⟨1, 0⟩ } })
    ∧ (∀ v, s.commits (.clr v) v .dbgRcmd 0 0x4000 fun t => { t with
        lc := { t.lc with rbuf := tset [] t.lc.rbuf (viewCode v) [] } })
    ∧ (∀ p m bs, InService s p m 0x0023 bs → ∃ t, exec .dbgResp s = .next t ∧ t.lc.intake = s.lc.intake ++ [(.mgmt, bs)]
        ∧ t.host = s.host ∧ { t with lc := { t.lc with intake := s.lc.intake }, mgt := s.mgt } = s)
    ∧ (∀ c, s.lc.chal = some c → s.lc.checking = none → s.lc.intake ≠ [] → ∃ t src bytes, exec .responseIntake s = .next t
        ∧ (src, bytes) ∈ s.lc.intake ∧ (∀ r ∈ s.lc.intake, src.rank ≤ r.1.rank)
        ∧ t.lc.checking = some (src, bytes, c) ∧ t.lc.chal = none ∧ t.lc.intake = [] ∧ t.lc.grants = s.lc.grants
        ∧ (∀ v bs, (RspSrc.view v, bs) ∈ s.lc.intake → src ≠ .view v →
            tget {} t.lc.stat (viewCode v) = ⟨3, 1⟩ ∧ 1842 ∈ t.ev.pending)
        ∧ (s.lc.intake.length = 1 → { t with lc := s.lc } = s))
    ∧ (s.lc.chal = none → ∀ src bs, s.lc.intake = [(src, bs)] → ∃ t, exec .responseIntake s = .next t
        ∧ ResponseTold s src 1 t ∧ t.lc.intake = [] ∧ t.lc.checking = s.lc.checking ∧ t.lc.grants = s.lc.grants)
    ∧ (∀ src bytes c margin, s.lc.checking = some (src, bytes, c) → s.lc.granting = none → s.jrn.intake = [] →
        s.jrn.waiting = [] →
      (∀ pre q n post, responseChecks s bytes c margin = pre ++ (q, n) :: post → (∀ x ∈ pre, x.1) → ¬ q →
        ∃ t e, exec (.responseCheck margin) s = .next t ∧ ResponseTold s src n t ∧ t.lc.checking = none
          ∧ t.lc.granting = none ∧ t.lc.grants = s.lc.grants ∧ t.mode = s.mode
          ∧ t.jrn.intake = [e] ∧ e.record.kind = 0x0E ∧ e.record.status = stRefused ∧ e.record.obj = c.scope ∧ e.record.new = n)
      ∧ ((∀ x ∈ responseChecks s bytes c margin, x.1) → ∃ t e, exec (.responseCheck margin) s = .next t
          ∧ t.lc = { s.lc with checking := none, granting := some (src, c.scope) }
          ∧ t.jrn.intake = [e] ∧ e.record.kind = 0x0E ∧ e.record.status = stOk ∧ e.record.obj = c.scope
          ∧ e.changes = [.grant c.scope] ∧ { t with lc := s.lc, jrn := s.jrn } = s))
    ∧ (∀ src scope, s.lc.granting = some (src, scope) →
      (CommitsNext s (.grant scope) →
        (needsToken s scope = false → ∃ t, exec .journalCommit s = .next t ∧ ScopeGranted s src scope t)
        ∧ (∀ w, needsToken s scope = true → tokenWord s = some w → ∃ t e, exec .journalCommit s = .next t
          ∧ t.jrn.intake = [e] ∧ e.record.kind = 0x0D ∧ e.changes = [.token w] ∧ { t with jrn := s.jrn } = s))
      ∧ (∀ w, CommitsNext s (.token w) → s.flash.op = none → s.lc.burn = none → ∃ j, exec .journalCommit s = .next { s with
          lc := { s.lc with burn := some (.token w) }, jrn := j } ∧ oneMore s j)
      ∧ (∀ w, s.lc.burn = some (.token w) → ∃ t, exec .burnDone s = .next t ∧ tget 0 t.lc.tokens w = 0xFFFF
          ∧ (∀ i, i ≠ w → tget 0 t.lc.tokens i = tget 0 s.lc.tokens i) ∧ t.lc.burn = none ∧ ScopeGranted s src scope t))
    ∧ (∀ v, s.commits (.openSession v) v .dbgCtl 0 0x8000 fun t => { t with lc := { t.lc with opened := true } })
    ∧ (∀ v, s.takes v .dbgCtl 0 0x8000 → s.lc.state = .raw ∨ s.lc.state = .vtest ∨ s.lc.state = .shipped)

/-- JOURNAL_COMMIT, JDRAIN_CLOSE and JOURNAL_SPILL (R391, R394, R396 to R398). What the manual leaves open here
follows the model's own choices, log entries 2, 8, 16, 87 and 90. -/
def Obligations.JournalSinks : Prop :=
  ∀ s : State,
    (∀ e rest, s.clk.started = true → s.mode.busUp = true → s.jrn.missedCount = 0 → s.jrn.waiting = [] →
        s.jrn.intake = e :: rest →
      (sinkOn s = false → e.changes = [.done] → ∃ j, exec .journalCommit s = .next { s with jrn := j }
        ∧ j.intake = rest ∧ j.seq = (s.jrn.seq + 1) % 2 ^ 32 ∧ j.lastSeq = some s.jrn.seq
        ∧ j.prev = recordBits e s.jrn.seq s.jrn.prev)
      ∧ (∀ v off val, sinkOn s = true → e.refusable = true → e.changes = [.reg v off val] → off ≠ 0x4030C →
        s.side.acc.inProgress = false → s.tap.acc.inProgress = false →
        jrnShare s e.record.part < shareUsed s e.record.part + e.need →
        ∃ t, exec .journalCommit s = .next t ∧ t.jrn.intake = rest ∧ t.jrn.ring = s.jrn.ring ∧ t.jrn.seq = s.jrn.seq
          ∧ { t with jrn := s.jrn, vregs := s.vregs } = s ∧ (vw t v 0x8 0).toNat % 256 = stJournalFull
          ∧ (vw t v 0x8 0).getLsbD 13 = true
          ∧ (∀ u, u ∈ viewsOf s e.record.part → (vw t u 0x8 0).getLsbD 13 = true))
      ∧ (sinkOn s = true → e.refusable = false → e.changes = [.done] → e.record.kind ≠ 5 → e.record.kind ≠ 7 →
        jrnShare s e.record.part ≤ shareUsed s e.record.part →
        (reservedUsed s < 64 → s.jrn.ring.length < ringPlaces → ∃ t x, exec .journalCommit s = .next t ∧ t.jrn.intake = rest ∧ t.jrn.missedCount = 0
          ∧ x ∈ t.jrn.ring ∧ x.seq = s.jrn.seq ∧ x.reserved = true)
        ∧ (64 ≤ reservedUsed s ∨ ringPlaces ≤ s.jrn.ring.length → ∃ t, exec .journalCommit s = .next t ∧ t.jrn.intake = rest ∧ t.jrn.missedCount = 1
          ∧ t.jrn.missed = true ∧ t.jrn.ring = s.jrn.ring ∧ 1857 ∈ t.ev.pending)))
    ∧ (s.clk.started = true → s.mode.busUp = true → s.jrn.missedCount ≠ 0 →
        sinkOn s = false ∨ shareUsed s 0 < jrnShare s 0 ∨ (reservedUsed s < 64 ∧ s.jrn.ring.length < ringPlaces) →
        ∃ t, exec .journalCommit s = .next t ∧ t.jrn.missedCount = 0 ∧ t.jrn.intake = s.jrn.intake
          ∧ t.jrn.seq = (s.jrn.seq + 1) % 2 ^ 32 ∧ t.jrn.lastSeq = some s.jrn.seq)
    ∧ (∀ b bs, s.jrn.buffers = b :: bs →
      (b.recs ≠ [] → b.cap ≤ b.recs.length ∨ (jrnCtl s % 256 ≠ 0 ∧ b.opened + jrnCtl s % 256 * 600000 ≤ s.clk.f1) →
        b.ring < deadRing → exec .jdrainClose s = .next { s with
          jrn := { s.jrn with buffers := bs }
          host := { s.host with cpl := s.host.cpl ++ [⟨b.ring, kJrn, stOk, 0, b.tag, (b.recs.head?.map (·.1)).getD 0,
            b.recs.length, 1, [(b.addr, b.recs.flatMap fun r => leBytes 32 r.2.toNat)], b.recs.map (·.1), none⟩] } })
      ∧ (b.recs = [] → exec .jdrainClose s = .next s))
    ∧ (∀ r ok, spillNext s = some r → ∀ sec used, sec = (if 128 ≤ s.flash.curUsed then s.flash.nextSector else s.flash.curSector) →
        used = (if 128 ≤ s.flash.curUsed then 0 else s.flash.curUsed) →
      (chatyUp s = true → s.lc.burn = none → s.flash.op = none ∨ s.flash.suspended = true →
        s.flash.curUsed < 128 ∨ s.flash.nextReady = true →
        ∃ t, exec (.journalSpill ok) s = .next t
          ∧ (∀ a, a < 0x13000000 + 4096 * sec + 32 * used ∨ 0x13000000 + 4096 * sec + 32 * used + 32 ≤ a → flByte t a = flByte s a)
          ∧ t.flash.curSector = sec
          ∧ (ok = true → t.flash.curUsed = used + 1
            ∧ flBytes t (0x13000000 + 4096 * sec + 32 * used) 32 = leBytes 32 r.bytes.toNat
            ∧ (∀ x ∈ t.jrn.ring, x.seq = r.seq → x.flashTaken = true)
            ∧ (used = 127 → tget [] t.flash.seals sec = Config.cmacSeal sec (flBytes t (0x13000000 + 4096 * sec) 4096)))
          ∧ (ok = false → t.flash.curUsed = 128 ∧ t.jrn.spillErr = true ∧ t.jrn.ring = s.jrn.ring ∧ 1858 ∈ t.ev.pending)
          ∧ (used ≠ 0 → t.flash.op = s.flash.op)
          ∧ (used = 0 → s.flash.op = none → t.flash.op = some (.erase (0x13000 + t.flash.nextSector) 0 none none))
          ∧ (used = 0 → s.flash.op ≠ none → t.flash.op = s.flash.op ∧ .journalErase ∈ t.dram.deferred))
      ∧ (spillReady s = false → exec (.journalSpill ok) s = .next s))

/-- FREEZE, RELEASE, FREEZE_EDGE, RESUME_EDGE, DBG_PRGN and DBG_PLINE_WRITE (R400 to R402, R406, R407, Table 19-4).
What the manual leaves open here follows the model's own choices, log entries 2, 8 and 88. -/
def Obligations.CaptureAndProbes : Prop :=
  ∀ s : State,
    (∀ (v : View) (val : Word) k, (∀ n, v = .vf n → n < 16) → k = (if val.getLsbD 13 then 16 else viewPart s v) →
      (fld val.toNat 15 14 = 1 →
        s.commitsTo (.freeze v val) v .dbgCapcmd 0 val.toNat (fun u =>
          capOf u k = some (.armed (twoAfter s) (if val.getLsbD 12 then some (captTime s v) else none))
            ∧ (∀ j, j ≠ k → capOf u j = capOf s j) ∧ vw u v 0xED014 0 = 0
            ∧ { u with jrn := s.jrn, cap := s.cap, vregs := s.vregs } = s)
        ∧ (s.takes v .dbgCapcmd 0 val.toNat → s.mode = .m5 ∧ capOf s k = none ∧ (k < 16 → enabled s k = true ∧ capOf s 16 = none)
            ∧ (k = 16 → anyCapture s = false)))
      ∧ (fld val.toNat 15 14 = 2 →
        s.commitsTo (.release v val) v .dbgCapcmd 0 val.toNat (fun u =>
          (∀ a t, capOf s k = some (.armed a t) → capOf u k = none)
            ∧ (∀ f, capOf s k = some (.frozen f) → capOf u k = some (.resuming f (twoAfter s)))
            ∧ (∀ f a, capOf s k = some (.resuming f a) → capOf u k = capOf s k)
            ∧ (∀ j, j ≠ k → capOf u j = capOf s j) ∧ { u with jrn := s.jrn, cap := s.cap, vregs := s.vregs } = s)
        ∧ (s.takes v .dbgCapcmd 0 val.toNat → capOf s k ≠ none)))
    ∧ (∀ k a at_, capOf s k = some (.armed a at_) →
      (s.mode = .m5 → a ≤ s.clk.f1 → s.clk.k < s.clk.slotLen → at_.getD 0 ≤ sysNow s → ∃ t, exec (.freezeEdge k) s = .next t
        ∧ capOf t k = some (.frozen s.clk.f1) ∧ (∀ j, j ≠ k → capOf t j = capOf s j)
        ∧ tget 0 t.cap.fTime k = sysNow s ∧ tget 0 t.cap.rTime k = 0 ∧ 1859 ∈ t.ev.pending
        ∧ t.mode = (if k = 16 then .m6 else .m5)
        ∧ (∀ p, p < 256 → k = 16 ∨ pinPart s p = k → (pinOf t p).held = some (funcDrive s p))
        ∧ (∀ p, k ≠ 16 → pinPart s p ≠ k → pinOf t p = pinOf s p)
        ∧ (k ≠ 16 → { t with cap := s.cap, pins := s.pins, ev := s.ev, outs := s.outs } = s))
      ∧ (s.mode ≠ .m5 ∨ s.clk.f1 < a ∨ s.clk.slotLen ≤ s.clk.k ∨ sysNow s < at_.getD 0 → exec (.freezeEdge k) s = .next s))
    ∧ (∀ k f a, capOf s k = some (.resuming f a) →
      (a ≤ s.clk.f1 + 1 → s.clk.f1 % 8 = f % 8 → s.clk.k < s.clk.slotLen → ∃ t, exec (.resumeEdge k) s = .next t
        ∧ capOf t k = none ∧ (∀ j, j ≠ k → capOf t j = capOf s j) ∧ tget 0 t.cap.rTime k = nextReading s
        ∧ tget 0 t.cap.fTime k = tget 0 s.cap.fTime k ∧ 1860 ∈ t.ev.pending ∧ t.mode = (if k = 16 then .m5 else s.mode)
        ∧ (∀ p, p < 256 → k = 16 ∨ pinPart s p = k → (pinOf t p).held = none)
        ∧ (∀ p, k ≠ 16 → pinPart s p ≠ k → pinOf t p = pinOf s p)
        ∧ (k ≠ 16 → { t with cap := s.cap, pins := s.pins, ev := s.ev, outs := s.outs } = s))
      ∧ (s.clk.f1 + 1 < a ∨ s.clk.f1 % 8 ≠ f % 8 ∨ s.clk.slotLen ≤ s.clk.k → exec (.resumeEdge k) s = .next s))
    ∧ nextReading s = (if s.clk.k + 1 < s.clk.slotLen then s.clk.systime + min (5 * (s.clk.k + 1) / 3) 999
        else s.clk.systime + 1000)
    ∧ (∀ (v : View) (val : Word) r, r = val.toNat % 512 →
      s.commitsTo (.dbgPrgn v val) v .dbgPrgn 0 val.toNat (fun u =>
        (∀ j, j < 16 → tget 0x0980 u.fab.probe (r * 16 + j) = vw s v (0xEE000 + 4 * j) 0x0980)
          ∧ (∀ j, j / 16 ≠ r → tget 0x0980 u.fab.probe j = tget 0x0980 s.fab.probe j)
          ∧ { u with jrn := s.jrn, fab := { u.fab with probe := s.fab.probe } } = s)
      ∧ (s.takes v .dbgPrgn 0 val.toNat → r < 384 ∧ (regionPart s r = viewPart s v ∨ session s = true)))
    ∧ (∀ (v : View) (val : Word) l,
      s.commits (.dbgPlineWrite v l val) v .dbgPline l val.toNat (fun t => { t with
        regs := tset 0 t.regs (0xEE100 + 4 * l) (BitVec.ofNat 16 (Nat.land val.toNat 0x9FFF)) })
      ∧ (s.takes v .dbgPline l val.toNat → session s = true ∨ (regionPart s (fld val.toNat 12 4) = viewPart s v
          ∧ (bit (probeLine s l) 15 = true → regionPart s (fld (probeLine s l) 12 4) = viewPart s v))))

/-- FL_READ, FL_PROG, SECTOR_ERASE, BLOCK_ERASE and MARK_BAD (R410 to R412, R414, R417, Tables 20-2 and 20-3). What
the manual leaves open here follows the model's own choices, log entries 8 and 89. -/
def Obligations.FlashRequests : Prop :=
  ∀ (s : State) p m bs r a, r = flHead bs → a = (areaOf s p r.area).1 + r.off →
    (InService s p m 0x0010 bs →
      (∀ pre q st c post, flashChecks s p r r.len (r.op = 0) (readForm r) = pre ++ (q, st, c) :: post → (∀ x ∈ pre, x.1) → ¬ q →
        ∃ t, exec .flRead s = .next t ∧ MgmtEnds s p m st (flRsp c 0) t ∧ OnlyMgmt s t)
      ∧ ((∀ x ∈ flashChecks s p r r.len (r.op = 0) (readForm r), x.1) →
        (m.rspLen < 4 + r.len → ∃ t, exec .flRead s = .next t ∧ MgmtEnds s p m stInvalid [] t ∧ OnlyMgmt s t)
        ∧ (4 + r.len ≤ m.rspLen →
          (∀ k more q x, s.flash.op = some (.erase k more q x) → a < 4096 * (k + 1) → 4096 * k < a + r.len →
            exec .flRead s = .next s)
          ∧ ((∀ k more q x, s.flash.op = some (.erase k more q x) → 4096 * (k + 1) ≤ a ∨ a + r.len ≤ 4096 * k) →
            ((∀ i, i < r.len / 2 → goodWord s (a + 2 * i)) → ∃ t, exec .flRead s = .next t ∧ OnlyMgmt s t
              ∧ MgmtEnds s p m stOk (flRsp 0 (if r.area = 3 then sealBits s (r.off / 4096) (r.len / 4096) else 0)
                  ++ flBytes s a r.len) t)
            ∧ (∀ i c, i < r.len / 2 → (∀ j, j < i → goodWord s (a + 2 * j)) → ¬ goodWord s (a + 2 * i) →
              c = (if halfErased s ((a + 2 * i) / 4096) then 4 else 6) → ∃ t, exec .flRead s = .next t ∧ OnlyMgmt s t
              ∧ MgmtEnds s p m stUe (flRsp c (if r.area = 3 then sealBits s (r.off / 4096) (r.len / 4096) else 0)
                  ++ flBytes s a (2 * i)) t)))))
    ∧ (InService s p m 0x0011 bs → s.dram.deferred = [] →
      (s.flash.op ≠ none ∨ s.lc.burn ≠ none → exec .flProg s = .next { s with dram := { s.dram with deferred := [.flash] } })
      ∧ (s.flash.op = none → s.lc.burn = none →
        (∀ pre q st c post, flashChecks s p r r.len (r.op = 0 ∧ r.area ≠ 3) (progForm r (bs.drop 16)) = pre ++ (q, st, c) :: post →
          (∀ x ∈ pre, x.1) → ¬ q → ∃ t, exec .flProg s = .next t ∧ MgmtEnds s p m st (flRsp c 0) t ∧ OnlyMgmt s t)
        ∧ ((∀ x ∈ flashChecks s p r r.len (r.op = 0 ∧ r.area ≠ 3) (progForm r (bs.drop 16)), x.1) →
          (halfErased s (a / 4096) = true → ∃ t, exec .flProg s = .next t ∧ MgmtEnds s p m stUe (flRsp 4 0) t ∧ OnlyMgmt s t)
          ∧ (halfErased s (a / 4096) = false → ∀ i, i < r.len / 2 → flWord s (a + 2 * i) ≠ 0xFFFF ∨ a / 2 + i ∈ s.flash.badWords →
            ∃ t, exec .flProg s = .next t ∧ MgmtEnds s p m stInvalid (flRsp 5 0) t ∧ OnlyMgmt s t)
          ∧ (halfErased s (a / 4096) = false →
            (∀ i, i < r.len / 2 → flWord s (a + 2 * i) = 0xFFFF ∧ a / 2 + i ∉ s.flash.badWords) →
            ∃ t, exec .flProg s = .next t ∧ MgmtEnds s p m stOk (flRsp 0 0) t ∧ flBytes t a r.len = bs.drop 16
              ∧ (∀ b, b < a ∨ a + r.len ≤ b → flByte t b = flByte s b)
              ∧ { t with mgt := s.mgt, host := s.host, flash := { t.flash with data := s.flash.data } } = s))))
    ∧ (InService s p m 0x0012 bs →
      (∀ cmd unit, s.dram.deferred = [] → (cmd = .sectorErase ∧ unit = 4096 ∧ r.op = 1) ∨ (cmd = .blockErase ∧ unit = 65536 ∧ r.op = 2) →
        (s.flash.op ≠ none ∨ s.lc.burn ≠ none → exec cmd s = .next { s with dram := { s.dram with deferred := [.flash] } })
        ∧ (s.flash.op = none → s.lc.burn = none →
          (∀ pre q st c post, flashChecks s p r unit (r.area ≠ 3) (unitForm r unit) = pre ++ (q, st, c) :: post →
            (∀ x ∈ pre, x.1) → ¬ q → ∃ t, exec cmd s = .next t ∧ MgmtEnds s p m st (flRsp c 0) t ∧ OnlyMgmt s t)
          ∧ ((∀ x ∈ flashChecks s p r unit (r.area ≠ 3) (unitForm r unit), x.1) → ∃ t, exec cmd s = .next t
            ∧ t.flash.op = some (.erase (a / 4096) (unit / 4096 - 1) (some p) none) ∧ t.flash.since = s.clk.f1
            ∧ t.flash.ran = 0 ∧ t.flash.suspended = false ∧ halfErased t (a / 4096) = true
            ∧ (∀ k, k ≠ a / 4096 → sectorStatus t k = sectorStatus s k) ∧ t.flash.data = s.flash.data
            ∧ openReq t p = some { m with working := true } ∧ t.host = s.host
            ∧ { t with mgt := s.mgt, flash := s.flash } = s)))
      ∧ (r.op ≠ 1 → r.op ≠ 2 → r.op ≠ 3 → s.dram.deferred = [] → s.flash.op = none → s.lc.burn = none →
        ∃ t, exec .sectorErase s = .next t ∧ MgmtEnds s p m stDenied (flRsp 1 0) t ∧ OnlyMgmt s t)
      ∧ (r.op = 3 →
        (∀ pre q st c post, flashChecks s p r 65536 (r.area ≠ 3) (unitForm r 65536) = pre ++ (q, st, c) :: post →
          (∀ x ∈ pre, x.1) → ¬ q → ∃ t, exec .markBad s = .next t ∧ MgmtEnds s p m st (flRsp c 0) t ∧ OnlyMgmt s t)
        ∧ ((∀ x ∈ flashChecks s p r 65536 (r.area ≠ 3) (unitForm r 65536), x.1) →
          (s.flash.runtimeBad.length < 512 → ∃ t, exec .markBad s = .next t ∧ MgmtEnds s p m stOk (flRsp 0 0) t
            ∧ badBlock t (a / 65536) = true ∧ (∀ k, k ≠ a / 65536 → badBlock t k = badBlock s k) ∧ 1713 ∈ t.ev.pending)
          ∧ (512 ≤ s.flash.runtimeBad.length → ∃ t, exec .markBad s = .next t ∧ MgmtEnds s p m stRefused (flRsp 8 0) t
            ∧ t.flash.runtimeBad = s.flash.runtimeBad ∧ (s.flash.bbFullSeen = false → 1714 ∈ t.ev.pending)))))

/-- ERASE_DONE, ERASEFAIL, ERASE_SUSPEND and ERASE_RESUME (R412 to R414, R417, R419). What the manual leaves open
here follows the model's own choices, log entries 2, 89 and 90. -/
def Obligations.FlashErases : Prop :=
  ∀ (s : State) (sec more : Nat) (p quota : Option Nat), s.flash.op = some (.erase sec more p quota) →
    (s.flash.suspended = false → eraseTime s ≤ 4800000 →
      (more ≠ 0 → ∃ t, exec .eraseDone s = .next t ∧ t.flash.op = some (.erase (sec + 1) (more - 1) p quota)
        ∧ (∀ a, flByte t a = if a / 4096 = sec then 0xFF else flByte s a) ∧ halfErased t sec = !halfErased s sec
        ∧ halfErased t (sec + 1) = true ∧ t.mgt = s.mgt ∧ t.host = s.host)
      ∧ (more = 0 → ∀ q, p = some q → ∃ t, exec .eraseDone s = .next t ∧ t.flash.op = none
        ∧ (∀ a, flByte t a = if a / 4096 = sec then 0xFF else flByte s a) ∧ halfErased t sec = !halfErased s sec
        ∧ (∀ k, k ≠ sec → sectorStatus t k = sectorStatus s k) ∧ RequestEnds s q stOk (flRsp 0 0) t)
      ∧ (more = 0 → p = none → ∀ b, quota = some b → s.flash.pendingBlocks = [b] → ∃ t, exec .eraseDone s = .next t
        ∧ t.flash.op = none ∧ t.flash.pendingBlocks = [] ∧ halfErased t sec = !halfErased s sec
        ∧ (∀ a, flByte t a = if a / 4096 = sec then 0xFF else flByte s a) ∧ t.mgt = s.mgt)
      ∧ (more = 0 → p = none → quota = none → sec = 0x13000 + s.flash.nextSector → s.flash.nextSector < 512 →
        ∃ t, exec .eraseDone s = .next t ∧ t.flash.op = none ∧ t.flash.nextReady = true
        ∧ tget [] t.flash.seals s.flash.nextSector = [] ∧ halfErased t sec = !halfErased s sec
        ∧ (∀ a, flByte t a = if a / 4096 = sec then 0xFF else flByte s a) ∧ t.mgt = s.mgt))
    ∧ (s.flash.suspended = false → 4800000 ≤ eraseTime s →
      (∀ q, p = some q → s.flash.runtimeBad.length < 512 → ∃ t, exec .erasefail s = .next t ∧ t.flash.op = none
        ∧ badBlock t (sec / 16) = true ∧ t.flash.status = s.flash.status ∧ t.flash.data = s.flash.data ∧ 1713 ∈ t.ev.pending
        ∧ RequestEnds s q stUe (flRsp 7 0) t)
      ∧ (∀ q, p = some q → 512 ≤ s.flash.runtimeBad.length → ∃ t, exec .erasefail s = .next t ∧ t.flash.op = none
        ∧ t.flash.runtimeBad = s.flash.runtimeBad ∧ t.flash.status = s.flash.status ∧ RequestEnds s q stRefused (flRsp 8 0) t)
      ∧ (p = none → quota = none → s.flash.runtimeBad.length < 512 → s.lc.burn = none → ∃ t, exec .erasefail s = .next t
        ∧ badBlock t (sec / 16) = true ∧ t.flash.nextSector = (s.flash.nextSector + 1) % 512
        ∧ t.flash.op = some (.erase (0x13000 + t.flash.nextSector) 0 none none)))
    ∧ (s.flash.suspended = true → exec .eraseDone s = .next s ∧ exec .erasefail s = .next s)
    ∧ (4800000 < eraseTime s → exec .eraseDone s = .next s) ∧ (eraseTime s < 4800000 → exec .erasefail s = .next s)
    ∧ (s.flash.suspended = false → spillNext s ≠ none → s.flash.curUsed < 128 ∨ s.flash.nextReady = true →
        s.flash.since + 300000 ≤ s.clk.f1 → exec .eraseSuspend s = .next { s with flash := { s.flash with
          suspended := true, ran := eraseTime s, since := s.clk.f1 } })
    ∧ (s.flash.suspended = true ∨ spillNext s = none ∨ s.clk.f1 < s.flash.since + 300000 → exec .eraseSuspend s = .next s)
    ∧ (s.flash.suspended = true → 128 ≤ s.flash.curUsed ∨ s.flash.since + 600000 ≤ s.clk.f1 →
        exec .eraseResume s = .next { s with flash := { s.flash with suspended := false, since := s.clk.f1 } })
    ∧ (s.flash.suspended = false ∨ (s.flash.curUsed < 128 ∧ s.clk.f1 < s.flash.since + 600000) →
        exec .eraseResume s = .next s)

/-- USER_CLOCK_EDGE: one F1 edge, at which the hard sites capture that no command has made capture, and user
registers, lanes, engines and harts move on (R59, R69, R71, R80, R82, R86, R141, R187, R334). What the manual leaves
open here follows the model's own choices, log entries 2, 34, 35, 71 and 113. -/
def Obligations.UserClockEdges : Prop :=
  ∀ s : State,
    (s.clk.started = false ∨ s.mode.busUp = false ∨ edgeHolds s = true ∨ s.clk.slotLen ≤ s.clk.k →
      exec .userClockEdge s = .next s)
    ∧ (∀ u, u = fspBefore (cycleEnd s) → s.clk.started = true → s.mode.busUp = true → edgeHolds s = false →
      s.clk.k < s.clk.slotLen → s.pwr.entry = none → (s.still fun _ => True) → ∃ t, exec .userClockEdge s = .next t
        ∧ t.clk = { s.clk with f1 := s.clk.f1 + 1, k := s.clk.k + 1 } ∧ t.mode = s.mode ∧ t.flash = s.flash ∧ t.jrn = s.jrn
        ∧ t.lc = s.lc ∧ t.ldr = s.ldr ∧ t.cap = s.cap
        ∧ t.fab.active = s.fab.active ∧ t.fab.shadow = s.fab.shadow ∧ t.fab.captured = [] ∧ t.fab.announced = []
        ∧ (∀ r tl c e i, tl < 16 → c < 16 → e < 16 → i < 2 →
          (r ∈ runningRegions u → (s.clk.f1 + 1) % domPeriod (fld (ctrlOf s.fab.active r tl c e) 15 14) = 0 →
            tget false t.fab.ff (ffKey r tl c e i) = ffNext u u.freeCtr r tl c e i)
          ∧ (r ∉ runningRegions u ∨ (s.clk.f1 + 1) % domPeriod (fld (ctrlOf s.fab.active r tl c e) 15 14) ≠ 0 →
            tget false t.fab.ff (ffKey r tl c e i) = tget false s.fab.ff (ffKey r tl c e i)))
        ∧ (∀ r k, k < 1216 →
          (r ∈ runningRegions u → x3Reg t r k = x3Next u u.freeCtr r k)
          ∧ (r ∉ runningRegions u → x3Reg t r k = x3Reg s r k))
        ∧ (∀ src, src < 3072 → src / 8 ∈ runningRegions u → bridgeStage t 1 src = laneOut s src
          ∧ ∀ st, 1 ≤ st → st < 4 → bridgeStage t (st + 1) src = bridgeStage s st src)
        ∧ (Table.wf {} u.fab.mac = true → ∀ r tl x, (macOf u r tl).pend = [(s.clk.f1 + 1, x)] →
          (macOf t r tl).out = x ∧ (macOf t r tl).pend = []))
    ∧ (sitesDue s = [] → siteEdge s = s)
    ∧ (∀ k p, sitesDue s = [k] → sitePins s (k / 16) (k % 16) = some p →
      (12 ≤ k % 16 → k / 16 < 384 → p.getLsbD 33 = true →
        exec (.access (4 * (k / 16) + (k % 16 - 12)) none) s = .next (siteEdge s))
      ∧ (12 ≤ k % 16 → p.getLsbD 33 = false →
        siteEdge s = { s with fab := { s.fab with captured := sins k s.fab.captured } })
      ∧ (k % 16 < 12 → OnlyMac s (k / 16) (k % 16) (siteEdge s)
        ∧ macOf (siteEdge s) (k / 16) (k % 16) = macNext (macOf s (k / 16) (k % 16))
            (siteWord s.fab.active (k / 16) (k % 16) 1) p.toNat (cascIn s (k / 16) (k % 16)) (s.clk.f1 + 1)))
    ∧ (∀ h d rd n sg w, h < 4 → edgeDue s = true → s.pwr.entry = none → (s.still fun g => g ≠ h) → (hartOf s h).store = [] → hartRuns s h = true →
      (hartOf s h).state = .run → (hartOf s h).mie = false → s.qe.xfers = [] → s.qe.fsp = [] → s.host.dma = [] →
      s.bank.waiting = [] → s.bank.done = [d] → d.master = 2 + h →
      d.due ≤ s.clk.f1 + 1 → d.status = stOk → (hartOf s h).wait = some (.load rd n sg w d.id) → rd < 32 →
      (∃ v op, (hartOf s h).prefetch = [((hartOf s h).pc, some v)] ∧ (hartOf s h).pc.toNat % 4 = 0
        ∧ decodeRv v.toNat = (some op, 4)) → ∃ t, exec .userClockEdge s = .next t
        ∧ (hartOf t h).x = (if rd = 0 then (hartOf s h).x else tset 0 (hartOf s h).x rd (loadValue n sg (leVal d.data)))
        ∧ (hartOf t h).pc = (hartOf s h).pc + 4 ∧ (hartOf t h).minstret = (hartOf s h).minstret + 1
        ∧ (hartOf t h).mcycle = (hartOf s h).mcycle + 2 ∧ d ∉ t.bank.done)
    ∧ (∀ r, r ∈ runningRegions s ↔ r ∈ configured s.fab.active ∧ s.mode = .m5 ∧ enabled s (regionPart s r) = true
        ∧ frozen s (regionPart s r) = false ∧ gated s = false)
    ∧ (edgeHolds s = true ↔ s.clk.boundaryDue = true ∨ (∃ e ∈ s.cap.scopes, capEdgeDue s e.2 = true)
        ∨ (∃ e ∈ s.swp.groups, ∃ q, e.2.sched = some q ∧ q.released = true ∧ s.clk.f1 % 8 = 0)
        ∨ (s.pwr.waiting = true ∧ s.mode = .m5 ∧ hartsWait s = true ∧ s.clk.f1 % 2 = 0))
end

