-- ==== Sys2Proof/Laws/Registers.lean ====
section
/-! SUPPORT. The register map is unambiguous: the offset of a register leads back to it. -/

namespace Sys2Proof.Laws

open Sys2Proof.Machine

/-- Two lines of the map share no offset. -/
def apart (r q : RegRow) : Bool :=
  decide (r.base + r.count * r.step ≤ q.base) || decide (q.base + q.count * q.step ≤ r.base)
    || (r.step == q.step && r.base % r.step != q.base % r.step)

theorem regMap_pairwise : regMap.Pairwise fun r q => apart r q = true := by decide +kernel

theorem regMap_steps : ∀ r ∈ regMap, 0 < r.step := by decide +kernel

theorem apart_holds {r q : RegRow} {off : Nat} (h : apart r q = true) (a : r.holds off = true)
    (b : q.holds off = true) : False := by
  simp only [RegRow.holds, Bool.and_eq_true, decide_eq_true_eq, beq_iff_eq] at a b
  simp only [apart, Bool.or_eq_true, decide_eq_true_eq, Bool.and_eq_true, beq_iff_eq, bne_iff_ne, ne_eq] at h
  obtain ⟨⟨a1, a2⟩, a3⟩ := a
  obtain ⟨⟨b1, b2⟩, b3⟩ := b
  rcases h with (h | h) | ⟨h, h'⟩
  · omega
  · omega
  · rw [← h] at b3
    apply h'
    obtain ⟨x, hx⟩ := Nat.exists_eq_add_of_le a1
    obtain ⟨y, hy⟩ := Nat.exists_eq_add_of_le b1
    rw [hx, Nat.add_sub_cancel_left] at a3
    rw [hy, Nat.add_sub_cancel_left] at b3
    have e : r.base + x = q.base + y := by omega
    have := congrArg (· % r.step) e
    simpa [Nat.add_mod, a3, b3] using this

theorem find_apart {l : List RegRow} {r : RegRow} {off : Nat} (hp : l.Pairwise fun r q => apart r q = true)
    (hr : r ∈ l) (h : r.holds off = true) : l.find? (·.holds off) = some r := by
  induction l with
  | nil => cases hr
  | cons q l ih =>
    rw [List.pairwise_cons] at hp
    rcases List.mem_cons.mp hr with rfl | hm
    · simp [h]
    · have hq : ¬ (q.holds off = true) := fun hq => apart_holds (hp.1 r hm) hq h
      simp only [List.find?_cons, Bool.eq_false_iff.mpr hq]
      exact ih hp.2 hm

/-- The line of a kind of register. -/
def rowOf (reg : Reg) : Option RegRow := regMap.find? (·.reg == reg)

/-- The offset of register i of a kind leads back to it (R34, R45). -/
theorem findReg_of_row {reg : Reg} {r : RegRow} {i : Nat} (hr : rowOf reg = some r) (hi : i < r.count) :
    findReg (r.off i) = some (r, i, false) := by
  have hm : r ∈ regMap := List.mem_of_find?_eq_some hr
  have hs := regMap_steps r hm
  have hh : r.holds (r.off i) = true := by
    have hlt : i * r.step < r.count * r.step := (Nat.mul_lt_mul_right hs).mpr hi
    simp [RegRow.holds, RegRow.off, hlt]
  have hd : (r.off i - r.base) / r.step = i := by
    simp [RegRow.off, Nat.mul_div_cancel i hs]
  simp [findReg, find_apart regMap_pairwise hm hh, hd]

theorem regOffset_of_row {reg : Reg} {r : RegRow} {i : Nat} (hr : rowOf reg = some r) (hi : i < r.count) :
    regOffset reg i = some (r.off i) := by
  unfold rowOf at hr
  simp [regOffset, hr, hi]

end Sys2Proof.Laws
end

