-- ==== Sys2Proof/Laws/Table.lean ====
section
/-! SUPPORT. The laws of the sparse tables: read after write, and that every operation keeps the canonical form. -/

namespace Sys2Proof.Laws

open Sys2Proof.Machine

variable {β : Type}

/-! ### Read after write -/

theorem tget_tdel_same (d : β) (t : Tbl β) (n : Nat) : tget d (tdel t n) n = d := by
  induction t with
  | nil => rfl
  | cons e t ih =>
    obtain ⟨k, w⟩ := e
    by_cases h : k = n
    · simpa [tdel, List.filter_cons, h] using ih
    · have h' : ¬ n = k := fun e => h e.symm
      simpa [tdel, List.filter_cons, h, tget, h'] using ih

theorem tget_tdel_ne (d : β) (t : Tbl β) {n m : Nat} (h : m ≠ n) : tget d (tdel t n) m = tget d t m := by
  induction t with
  | nil => rfl
  | cons e t ih =>
    obtain ⟨k, w⟩ := e
    by_cases hk : k = n
    · subst hk
      have : tdel ((k, w) :: t) k = tdel t k := by simp [tdel]
      rw [this, ih]; simp [tget, h]
    · have : tdel ((k, w) :: t) n = (k, w) :: tdel t n := by simp [tdel, hk]
      rw [this]; simp only [tget, ih]

theorem tget_tput_same (d : β) (t : Tbl β) (n : Nat) (v : β) (h : ∀ e ∈ t, e.1 ≠ n) : tget d (tput t n v) n = v := by
  induction t with
  | nil => simp [tput, tget]
  | cons e t ih =>
    obtain ⟨k, w⟩ := e
    have hk : ¬ n = k := fun e => h (k, w) (by simp) e.symm
    by_cases hl : n < k
    · simp [tput, hl, tget]
    · simp only [tput, hl, if_false, tget, hk]
      exact ih fun e he => h e (List.mem_cons_of_mem _ he)

theorem tget_tput_ne (d : β) (t : Tbl β) {n m : Nat} (v : β) (h : m ≠ n) : tget d (tput t n v) m = tget d t m := by
  induction t with
  | nil => simp [tput, tget, h]
  | cons e t ih =>
    obtain ⟨k, w⟩ := e
    by_cases hl : n < k
    · simp [tput, hl, tget, h]
    · simp only [tput, hl, if_false, tget, ih]

theorem tdel_ne (t : Tbl β) (n : Nat) : ∀ e ∈ tdel t n, e.1 ≠ n := by
  intro e he
  simpa [tdel] using (List.mem_filter.mp he).2

/-- A read of the key just written. -/
@[simp] theorem tget_tset_same [DecidableEq β] (d : β) (t : Tbl β) (n : Nat) (v : β) : tget d (tset d t n v) n = v := by
  unfold tset
  split
  · rename_i h; rw [tget_tdel_same, h]
  · exact tget_tput_same d _ n v (tdel_ne t n)

/-- A read of any other key, whatever default each of the two names. -/
theorem tget_tset_ne [DecidableEq β] (d d' : β) (t : Tbl β) {n m : Nat} (v : β) (h : m ≠ n) :
    tget d' (tset d t n v) m = tget d' t m := by
  unfold tset
  split
  · exact tget_tdel_ne d' t h
  · rw [tget_tput_ne d' _ v h, tget_tdel_ne d' t h]

/-- A read after a change of one key. -/
@[simp] theorem tget_tmod_same [DecidableEq β] (d : β) (t : Tbl β) (n : Nat) (f : β → β) :
    tget d (tmod d t n f) n = f (tget d t n) := tget_tset_same ..

theorem tget_tmod_ne [DecidableEq β] (d d' : β) (t : Tbl β) {n m : Nat} (f : β → β) (h : m ≠ n) :
    tget d' (tmod d t n f) m = tget d' t m := tget_tset_ne d d' t _ h

/-! ### The canonical form -/

theorem tableFrom_mono [DecidableEq β] (d : β) (t : Tbl β) {lo : Option Nat} {k : Nat} {w : β}
    (h : tableFrom d lo ((k, w) :: t) = true) : tableFrom d lo t = true := by
  cases t with
  | nil => rfl
  | cons e t =>
    obtain ⟨k', w'⟩ := e
    cases lo <;> simp [tableFrom] at h ⊢ <;> grind

theorem tableFrom_tdel [DecidableEq β] (d : β) (n : Nat) (t : Tbl β) :
    ∀ lo, tableFrom d lo t = true → tableFrom d lo (tdel t n) = true := by
  induction t with
  | nil => intro lo h; exact h
  | cons e t ih =>
    obtain ⟨k, w⟩ := e
    intro lo h
    by_cases hk : k = n
    · have e1 : tdel ((k, w) :: t) n = tdel t n := by simp [tdel, hk]
      rw [e1]; exact ih lo (tableFrom_mono d t h)
    · have e1 : tdel ((k, w) :: t) n = (k, w) :: tdel t n := by simp [tdel, hk]
      rw [e1]
      simp only [tableFrom, Bool.and_eq_true] at h ⊢
      exact ⟨h.1, ih _ h.2⟩

theorem tableFrom_tput [DecidableEq β] (d : β) (n : Nat) (v : β) (hv : v ≠ d) (t : Tbl β) :
    ∀ lo, (∀ l, lo = some l → l < n) → (∀ e ∈ t, e.1 ≠ n) → tableFrom d lo t = true →
      tableFrom d lo (tput t n v) = true := by
  induction t with
  | nil =>
    intro lo hl _ _
    cases lo with
    | none => simp [tput, tableFrom, hv]
    | some l => simp [tput, tableFrom, hv, hl l rfl]
  | cons e t ih =>
    obtain ⟨k, w⟩ := e
    intro lo hl hne h
    by_cases hk : n < k
    · simp only [tput, hk, if_true]
      simp only [tableFrom, Bool.and_eq_true] at h ⊢
      refine ⟨⟨?_, by simpa using hv⟩, ⟨by simpa using hk, h.1.2⟩, h.2⟩
      cases lo with
      | none => rfl
      | some l => simpa using hl l rfl
    · have hkn : k ≠ n := hne (k, w) (by simp)
      simp only [tput, hk, if_false]
      simp only [tableFrom, Bool.and_eq_true] at h ⊢
      refine ⟨h.1, ih _ ?_ (fun e he => hne e (List.mem_cons_of_mem _ he)) h.2⟩
      intro l e; cases e; omega

/-- A write keeps the canonical form. -/
theorem wf_tset [DecidableEq β] (d : β) (t : Tbl β) (n : Nat) (v : β) (h : Table.wf d t = true) :
    Table.wf d (tset d t n v) = true := by
  unfold tset
  split
  · exact tableFrom_tdel d n t _ h
  · rename_i hv
    exact tableFrom_tput d n v hv _ _ (by simp) (tdel_ne t n) (tableFrom_tdel d n t _ h)

theorem wf_tmod [DecidableEq β] (d : β) (t : Tbl β) (n : Nat) (f : β → β) (h : Table.wf d t = true) :
    Table.wf d (tmod d t n f) = true := wf_tset d t n _ h

theorem tableFrom_filter [DecidableEq β] (d : β) (p : Nat × β → Bool) (t : Tbl β) :
    ∀ lo, tableFrom d lo t = true → tableFrom d lo (t.filter p) = true := by
  induction t with
  | nil => intro lo h; exact h
  | cons e t ih =>
    obtain ⟨k, w⟩ := e
    intro lo h
    by_cases hk : p (k, w) = true
    · rw [List.filter_cons_of_pos hk]
      simp only [tableFrom, Bool.and_eq_true] at h ⊢
      exact ⟨h.1, ih _ h.2⟩
    · rw [List.filter_cons_of_neg hk]
      exact ih lo (tableFrom_mono d t h)

/-- Keeping some entries keeps the canonical form. -/
theorem wf_tkeep [DecidableEq β] (d : β) (p : Nat → Bool) (t : Tbl β) (h : Table.wf d t = true) :
    Table.wf d (tkeep p t) = true := tableFrom_filter d _ t _ h

theorem wf_tfill [DecidableEq β] (d v : β) (ns : List Nat) : ∀ t : Tbl β, Table.wf d t = true →
    Table.wf d (tfill d v t ns) = true := by
  induction ns with
  | nil => intro t h; exact h
  | cons n ns ih => intro t h; exact ih _ (wf_tset d t n v h)

/-- A run of bytes keeps the canonical form of a memory. -/
theorem wf_setBytes (d : Byte) (bs : List Byte) : ∀ (m : List Host.Cell) (a : Nat), Memory.wf d m = true →
    Memory.wf d (setBytes d m a bs) = true := by
  induction bs with
  | nil => intro m a h; exact h
  | cons b bs ih => intro m a h; exact ih _ _ (wf_tset d m a b h)

/-! ### Runs of bytes -/

/-- Bytes outside a run are unchanged. -/
theorem tget_setBytes_out (d : Byte) (bs : List Byte) : ∀ (m : List Host.Cell) (a x : Nat),
    (x < a ∨ a + bs.length ≤ x) → tget d (setBytes d m a bs) x = tget d m x := by
  induction bs with
  | nil => intro m a x _; rfl
  | cons b bs ih =>
    intro m a x h
    simp only [List.length_cons] at h
    rw [setBytes, ih _ _ _ (by omega), tget_tset_ne d d m b (by omega)]

/-- A run of bytes reads back. -/
theorem getBytes_setBytes (d : Byte) (bs : List Byte) : ∀ (m : List Host.Cell) (a : Nat),
    getBytes d (setBytes d m a bs) a bs.length = bs := by
  induction bs with
  | nil => intro m a; rfl
  | cons b bs ih =>
    intro m a
    simp only [List.length_cons, getBytes, setBytes]
    rw [ih, tget_setBytes_out d bs _ _ _ (by omega), tget_tset_same]

end Sys2Proof.Laws
end

