-- ==== Sys2Proof/Laws/Bus.lean ====
section
/-! SUPPORT. The register bus and the journal: what a write that meets nothing in its way does, once with its record and
once at once. -/

namespace Sys2Proof.Laws

open Sys2Proof.Machine

/-! ### Records -/

/-- Filling the JDRAIN buffers changes the journal alone, and of it the ring and the buffers. -/
theorem fillJbufs_eq (s : State) : ∃ bs rs, fillJbufs s = { s with jrn := { s.jrn with buffers := bs, ring := rs } } :=
  ⟨_, _, rfl⟩

/-- Full shares that JRN_FULL has told of raise nothing. -/
theorem noteFull_quiet {s : State} (h : sinkOn s = false ∨ ∀ q ∈ fullShares s, q ∈ s.jrn.full) :
    ∃ f, noteFull s = { s with jrn := { s.jrn with full := f } } := by
  by_cases hs : sinkOn s = true
  · have h : ∀ q ∈ fullShares s, q ∈ s.jrn.full := by
      rcases h with h | h
      · rw [hs] at h; cases h
      · exact h
    refine ⟨fullShares s, ?_⟩
    have e : (fullShares s).filter (fun p => !s.jrn.full.contains p) = [] := by
      rw [List.filter_eq_nil_iff]; intro q hq; simpa using h q hq
    unfold noteFull
    rw [hs]
    simp only [Bool.not_true, Bool.false_eq_true, if_false]
    rw [e]
    rfl
  · exact ⟨s.jrn.full, by simp [noteFull, hs]⟩

/-- The shares that are full after one more record of a partition that keeps room. -/
theorem fullShares_store {s : State} {p : Nat} {x : RingRec} {j : Journal} (hx : x.part = p)
    (hp : shareUsed s p + 1 < jrnShare s p) (hr : j.ring = s.jrn.ring ++ [x]) (hh : j.heldPlaces = s.jrn.heldPlaces) :
    ∀ q ∈ fullShares { s with jrn := j }, q ∈ fullShares s := by
  intro q hq
  simp only [fullShares, List.mem_filter, Bool.and_eq_true, decide_eq_true_eq] at hq ⊢
  refine ⟨hq.1, hq.2.1, ?_⟩
  have h2 : jrnShare { s with jrn := j } q = jrnShare s q := rfl
  have h3 := hq.2.2
  rw [h2] at h3
  by_cases e : q = p
  · subst e
    have : shareUsed { s with jrn := j } q ≤ shareUsed s q + 1 := by
      simp only [shareUsed, hr, hh, List.filter_append, List.length_append]
      have : (List.filter (fun r => r.part == q && !r.reserved) [x]).length ≤ 1 := List.length_filter_le ..
      omega
    omega
  · have : shareUsed { s with jrn := j } q = shareUsed s q := by
      have hf : List.filter (fun r => r.part == q && !r.reserved) [x] = [] := by
        simp [hx, Ne.symm e]
      simp [shareUsed, hr, hh, List.filter_append, hf]
    omega

/-- What follows the ring's new record changes the journal alone: JRN_FULL has told of every full share. -/
theorem settleRing {s : State} {p : Nat} {x : RingRec} (J : Journal) (hroom : s.room p) (hx : x.part = p)
    (hr : sinkOn s = true → J.ring = s.jrn.ring ++ [x]) (hh : J.heldPlaces = s.jrn.heldPlaces)
    (hf : J.full = s.jrn.full) :
    ∃ f bs rs, fillJbufs (noteFull { s with jrn := J }) =
      { s with jrn := { J with full := f, buffers := bs, ring := rs } } := by
  have hn : sinkOn { s with jrn := J } = false ∨ ∀ q ∈ fullShares { s with jrn := J }, q ∈ J.full := by
    by_cases hs : sinkOn s = true
    · rcases hroom with h | ⟨h1, h2⟩
      · rw [hs] at h; cases h
      · exact .inr fun q hq => hf ▸ h2 q (fullShares_store hx h1 (hr hs) hh q hq)
    · exact .inl (Bool.eq_false_iff.mpr hs)
  obtain ⟨f, hf'⟩ := noteFull_quiet hn
  rw [hf']
  obtain ⟨bs, rs, hb⟩ := fillJbufs_eq { s with jrn := { J with full := f } }
  exact ⟨f, bs, rs, hb⟩

/-- The ring's record of an entry. -/
def ringRec (s : State) (e : JEntry) : RingRec :=
  ⟨s.jrn.seq, e.record.part, recordBits e s.jrn.seq s.jrn.prev, false, false, false, false⟩

/-- The journal with an entry's record in the ring. -/
def withRecord (s : State) (e : JEntry) : Journal :=
  let ring := s.jrn.ring ++ [ringRec s e]
  { s.jrn with
    ring := if !sinkOn s && decide (ring.length > ringPlaces) then ring.drop 1 else ring
    seq := (s.jrn.seq + 1) % 2 ^ 32, prev := recordBits e s.jrn.seq s.jrn.prev, lastSeq := some s.jrn.seq
    live := { s.jrn.live with committed := sat 32 (s.jrn.live.committed + 1) } }

theorem storeRecord_eq (s : State) (e : JEntry) :
    storeRecord s e false = fillJbufs (noteFull { s with jrn := withRecord s e }) := rfl

/-- A record that its share takes with room to spare: only the journal changes, by this record (R391, R396). -/
theorem storeRecord_room {s : State} {e : JEntry} (hroom : s.room e.record.part) :
    ∃ j, storeRecord s e false = { s with jrn := j } ∧ j.intake = s.jrn.intake ∧ j.waiting = s.jrn.waiting
      ∧ j.missedCount = s.jrn.missedCount ∧ j.lastSeq = some s.jrn.seq ∧ j.seq = (s.jrn.seq + 1) % 2 ^ 32 := by
  have hr : sinkOn s = true → (withRecord s e).ring = s.jrn.ring ++ [ringRec s e] := by
    intro hs; unfold withRecord; rw [hs]; rfl
  obtain ⟨f, bs, rs, h⟩ := settleRing (s := s) (p := e.record.part) (x := ringRec s e) (withRecord s e) hroom rfl hr rfl rfl
  exact ⟨_, (storeRecord_eq s e).trans h, rfl, rfl, rfl, rfl, rfl⟩

/-- A journal that holds no further place keeps the room of a share. -/
theorem room_held {s : State} {p n : Nat} (h : s.room p) (J : Journal) (hr : J.ring = s.jrn.ring)
    (hf : J.full = s.jrn.full) (hh : J.heldPlaces = tset 0 s.jrn.heldPlaces n (tget 0 s.jrn.heldPlaces n)) :
    State.room { s with jrn := J } p := by
  have hu : ∀ q, shareUsed { s with jrn := J } q = shareUsed s q := by
    intro q
    simp only [shareUsed, hr, hh]
    by_cases e : q = n
    · subst e; simp
    · rw [tget_tset_ne 0 0 _ _ e]
  have hfs : fullShares { s with jrn := J } = fullShares s := by
    simp only [fullShares, hu]; rfl
  rcases h with h | ⟨h1, h2⟩
  · exact .inl h
  · exact .inr ⟨by rw [hu]; exact h1, by rw [hfs]; intro q hq; exact hf ▸ h2 q hq⟩

/-- A refusable record of one place that its share takes with room to spare is committed (R396). -/
theorem commitRecord_room {s : State} {e : JEntry} (hroom : s.room e.record.part) (hr : e.refusable = true)
    (hn : e.need = 1) :
    ∃ j, commitRecord s e = (true, { s with jrn := j }) ∧ j.intake = s.jrn.intake ∧ j.waiting = s.jrn.waiting
      ∧ j.missedCount = s.jrn.missedCount ∧ j.lastSeq = some s.jrn.seq ∧ j.seq = (s.jrn.seq + 1) % 2 ^ 32 := by
  have hp : sinkOn s = false ∨ shareUsed s e.record.part + e.need ≤ jrnShare s e.record.part := by
    rcases hroom with h | h
    · exact .inl h
    · exact .inr (by have := h.1; omega)
  have ht : (!sinkOn s || decide (shareUsed s e.record.part + e.need ≤ jrnShare s e.record.part)) = true := by
    rcases hp with h | h <;> simp [h]
  obtain ⟨j, hj, h⟩ := storeRecord_room (e := e) (room_held (n := e.record.part) hroom
    { s.jrn with heldPlaces := tset 0 s.jrn.heldPlaces e.record.part (tget 0 s.jrn.heldPlaces e.record.part + (e.need - 1)) }
    rfl rfl (by rw [hn]; rfl))
  refine ⟨j, ?_, h⟩
  unfold commitRecord
  rw [if_pos hr, if_pos ht]
  exact Prod.ext rfl hj

/-! ### What a record can change at all -/

/-- A raise changes the events and may tell of it on event-out pins (R357). -/
theorem raiseEv_eq (s : State) (n : Nat) : ∃ e o, raiseEv s n = { s with ev := e, outs := o } := by
  unfold raiseEv
  split
  · exact ⟨s.ev, s.outs, rfl⟩
  · split
    · exact ⟨s.ev, s.outs, rfl⟩
    · unfold riseEv
      split
      · exact ⟨_, _, rfl⟩
      · exact ⟨_, s.outs, rfl⟩

/-- After a raise of a source that exists, its pending bit is set (R357). -/
theorem raiseEv_pending {s : State} {n : Nat} (h : reservedSource n = false) : n ∈ (raiseEv s n).ev.pending := by
  have hs : ∀ l : List Nat, n ∈ sins n l := by
    intro l
    induction l with
    | nil => simp [sins]
    | cons k l ih =>
      unfold sins
      split
      · simp
      · split
        · rename_i h; simp [h]
        · simp [ih]
  unfold raiseEv
  rw [if_neg (by simp [h])]
  split
  · rename_i hc; simpa using hc
  · unfold riseEv
    split <;> exact hs _

theorem raise_fold (n : Nat) (l : List Nat) : ∀ s : State, ∃ e o,
    l.foldl (fun s _ => raiseEv s n) s = { s with ev := e, outs := o } := by
  induction l with
  | nil => intro s; exact ⟨s.ev, s.outs, rfl⟩
  | cons a l ih =>
    intro s
    obtain ⟨e, o, h⟩ := raiseEv_eq s n
    obtain ⟨e', o', h'⟩ := ih (raiseEv s n)
    exact ⟨e', o', by rw [List.foldl_cons, h', h]⟩

theorem noteFull_eq (s : State) : ∃ j e o, noteFull s = { s with jrn := j, ev := e, outs := o } := by
  unfold noteFull
  split
  · exact ⟨s.jrn, s.ev, s.outs, rfl⟩
  · extract_lets now fresh j t
    obtain ⟨e, o, h⟩ := raise_fold 1856 fresh t
    exact ⟨_, e, o, h⟩

theorem storeRecord_all (s : State) (x : JEntry) (b : Bool) :
    ∃ j e o, storeRecord s x b = { s with jrn := j, ev := e, outs := o } := by
  unfold storeRecord
  extract_lets bits r ring ring' j cnt t
  obtain ⟨j, e, o, h⟩ := noteFull_eq t
  obtain ⟨bs, rs, h'⟩ := fillJbufs_eq (noteFull t)
  exact ⟨_, e, o, by rw [h', h]⟩

theorem loseRecord_eq (s : State) : ∃ j e o, loseRecord s = { s with jrn := j, ev := e, outs := o } := by
  unfold loseRecord
  extract_lets first j cnt t
  split
  · obtain ⟨e, o, h⟩ := raiseEv_eq t 1857
    exact ⟨_, e, o, h⟩
  · exact ⟨_, s.ev, s.outs, rfl⟩

/-- A refusal with JOURNAL_FULL changes the words of views and the count of refusals (R396). -/
theorem journalFull_eq (s : State) (p : Nat) : ∃ j v, journalFull s p = { s with jrn := j, vregs := v } := by
  have key : ∀ (l : List View) (t : State), ∃ v,
      l.foldl (fun s v => setVw s v 0x8 0 (vw s v 0x8 0 ||| 0x2000)) t = { t with vregs := v } := by
    intro l
    induction l with
    | nil => intro t; exact ⟨t.vregs, rfl⟩
    | cons x l ih =>
      intro t
      obtain ⟨v, h⟩ := ih (setVw t x 0x8 0 (vw t x 0x8 0 ||| 0x2000))
      exact ⟨v, by rw [List.foldl_cons, h]; rfl⟩
  obtain ⟨v, h⟩ := key (viewsOf { s with jrn := { s.jrn with
    live := { s.jrn.live with refusals := sat 16 (s.jrn.live.refusals + 1) } } } p) _
  exact ⟨_, v, h⟩

/-- A commit changes the journal, the events that it raises, what they tell outside and, where it refuses, the error words
of views; and nothing else (R396). -/
theorem commitRecord_eq (s : State) (x : JEntry) :
    ∃ j e o v, (commitRecord s x).2 = { s with jrn := j, ev := e, outs := o, vregs := v } := by
  have hu : ∃ j, (if endsRecord x.record then releasePlace s x.record.part else s) = { s with jrn := j } := by
    split
    · exact ⟨_, rfl⟩
    · exact ⟨s.jrn, rfl⟩
  obtain ⟨j0, hu⟩ := hu
  have hs : ∀ b, ∃ j e o, storeRecord (if endsRecord x.record then releasePlace s x.record.part else s) x b =
      { s with jrn := j, ev := e, outs := o } := by
    intro b
    obtain ⟨j, e, o, h⟩ := storeRecord_all { s with jrn := j0 } x b
    exact ⟨j, e, o, by rw [hu, h]⟩
  have hl : ∃ j e o, loseRecord (if endsRecord x.record then releasePlace s x.record.part else s) =
      { s with jrn := j, ev := e, outs := o } := by
    obtain ⟨j, e, o, h⟩ := loseRecord_eq { s with jrn := j0 }
    exact ⟨j, e, o, by rw [hu, h]⟩
  unfold commitRecord
  dsimp only
  generalize (if endsRecord x.record then releasePlace s x.record.part else s) = u at hs hl ⊢
  have quiet : ∀ {u : State}, (∃ j e o, u = { s with jrn := j, ev := e, outs := o }) →
      ∃ j e o v, u = { s with jrn := j, ev := e, outs := o, vregs := v } :=
    fun ⟨j, e, o, h⟩ => ⟨j, e, o, s.vregs, h⟩
  split
  · split
    · obtain ⟨j, e, o, h⟩ := storeRecord_all { s with jrn := { s.jrn with
        heldPlaces := (tset 0 s.jrn.heldPlaces x.record.part
          (tget 0 s.jrn.heldPlaces x.record.part + (x.need - 1))) } } x false
      exact quiet ⟨j, e, o, h⟩
    · obtain ⟨j, v, h⟩ := journalFull_eq s x.record.part
      exact ⟨j, s.ev, s.outs, v, h⟩
  · split
    · exact quiet (hs false)
    · split
      · exact quiet (hs true)
      · exact quiet hl

/-- The flush of the intake before a reset (R373). -/
theorem flushIntake_eq (s : State) :
    ∃ j e o v, flushIntake s = { s with jrn := j, ev := e, outs := o, vregs := v } := by
  have key : ∀ (l : List JEntry) (s : State), ∃ j e o v,
      l.foldl (fun s e => (commitRecord s e).2) s = { s with jrn := j, ev := e, outs := o, vregs := v } := by
    intro l
    induction l with
    | nil => intro s; exact ⟨s.jrn, s.ev, s.outs, s.vregs, rfl⟩
    | cons x l ih =>
      intro s
      obtain ⟨j, e, o, v, h⟩ := commitRecord_eq s x
      obtain ⟨j', e', o', v', h'⟩ := ih (commitRecord s x).2
      exact ⟨j', e', o', v', by rw [List.foldl_cons, h', h]⟩
  exact key _ s

/-! ### A write and its record -/

/-- Nothing waits, so the bus serves the access at once (R37). -/
theorem settle_quiet {s : State} (h : s.Quiet) : settle s = s := by
  have : writeWaits s = false := by simp [writeWaits, h.intake, h.waiting]
  simp [settle, commitUntil, this]

/-- The one record in the intake is committed with room to spare, and its change takes effect (R394). -/
theorem journalStep_one {s : State} {e : JEntry} {c : Change} (hi : s.jrn.intake = [e]) (hw : s.jrn.waiting = [])
    (hm : s.jrn.missedCount = 0) (hroom : s.room e.record.part) (hr : e.refusable = true) (hn : e.need = 1)
    (hc : e.changes = [c]) :
    ∃ j, journalStep s = applyChange { s with jrn := j } c true ∧ oneMore s j := by
  have hroom' : State.room (popIntake s) e.record.part := by
    rcases hroom with h | ⟨h1, h2⟩
    · exact .inl h
    · exact .inr ⟨h1, h2⟩
  obtain ⟨j, hj, h1, h2, h3, h4, h5⟩ := commitRecord_room hroom' hr hn
  refine ⟨j, ?_, ?_⟩
  · have hm' : missedEntry s = none := by simp [missedEntry, hm]
    simp only [journalStep, hm', hi, hj, hc, List.foldl_cons, List.foldl_nil]
    rfl
  · refine ⟨?_, ?_, ?_, h4, h5⟩
    · rw [h1]; simp [popIntake, hi, hw]
    · rw [h2]; simp [popIntake, hw]
    · rw [h3]; exact hm

/-- A write that finds no port access in progress has nothing more to end. -/
theorem finishWrite_idle {s : State} {v : View} {st : Nat} (h1 : s.side.acc.inProgress = false)
    (h2 : s.tap.acc.inProgress = false) : finishWrite s v st = s := by
  cases v <;> simp [finishWrite, h1, h2]

/-- The bus serves a write that reaches a register and is not refused (R36, R43, R44). -/
theorem writeReg_accept {s : State} {v : View} {reg : Reg} {r : RegRow} {i val : Nat} (hq : s.Quiet)
    (hr : rowOf reg = some r) (hi : i < r.count) (hv : visible s v r i = true) (hro : readOnly s v r = false)
    (hh : r.half ≠ .hi) (hc : writeCheck s v r i (fullValue s v r i (BitVec.ofNat 16 val)) = none)
    (hb : busAborts s v (r.off i) = false) :
    writeReg reg i v val s = (acceptWrite s v r i (fullValue s v r i (BitVec.ofNat 16 val))).1 := by
  unfold fullValue at hc
  simp only [writeReg, regOffset_of_row hr hi, busWrite, hq.busUp, if_true, settle_quiet hq, hb, serveWrite,
    findReg_of_row hr hi, hv, hro, hh, hc, fullValue]
  rfl

/-- A refused write of a journaled register presents a REFUSED record; LAST and the flags are set at once (R39). -/
theorem writeReg_refuse {s : State} {v : View} {reg : Reg} {r : RegRow} {i val st : Nat} (hq : s.Quiet)
    (hr : rowOf reg = some r) (hi : i < r.count) (hv : visible s v r i = true) (hro : readOnly s v r = false)
    (hh : r.half ≠ .hi) (hc : writeCheck s v r i (fullValue s v r i (BitVec.ofNat 16 val)) = some st)
    (hb : busAborts s v (r.off i) = false) :
    writeReg reg i v val s = (refuseWrite s v r i (fullValue s v r i (BitVec.ofNat 16 val)) st).1 := by
  unfold fullValue at hc
  simp only [writeReg, regOffset_of_row hr hi, busWrite, hq.busUp, if_true, settle_quiet hq, hb, serveWrite,
    findReg_of_row hr hi, hv, hro, hh, hc, fullValue]
  rfl

/-- The first record into an empty intake. -/
theorem journal_first {s : State} {x : JRec} {b : Bool} {n : Nat} {c : Change} (hq : s.Quiet) :
    journal s x b n c = { s with jrn := { s.jrn with intake := [⟨{ x with sys := sysNow s }, 1, b, n, [c]⟩] } } := by
  simp [journal, presentEntry, hq.intake, hq.waiting]

/-- A journaled write and the commit of its record: only the journal changes beside what the register's write does
(R43, R393, R394). -/
theorem write_then_commit {s : State} {v : View} {reg : Reg} {r : RegRow} {i val : Nat} (hq : s.Quiet)
    (hroom : s.room (viewPart s v)) (hr : rowOf reg = some r) (hi : i < r.count) (hv : visible s v r i = true)
    (hro : readOnly s v r = false) (hh : r.half ≠ .hi)
    (hc : writeCheck s v r i (fullValue s v r i (BitVec.ofNat 16 val)) = none)
    (hb : busAborts s v (r.off i) = false) (hj : journaling r (fullValue s v r i (BitVec.ofNat 16 val)) = .write) (hm : r.reg ≠ .qeMigrateLo) :
    ∃ j, oneMore s j ∧ exec .journalCommit (writeReg reg i v val s) =
      .next (finishWrite (regApply { s with jrn := j } v r i (fullValue s v r i (BitVec.ofNat 16 val))) v stOk) := by
  rw [writeReg_accept hq hr hi hv hro hh hc hb]
  simp only [acceptWrite, hj, if_neg hm]
  rw [journal_first hq]
  obtain ⟨j, h1, h2⟩ := journalStep_one (s := { s with jrn := { s.jrn with intake := [⟨{ (viewRec s v 0x01 stOk (r.off i)
    (oldValue s v r i) (fullValue s v r i (BitVec.ofNat 16 val))) with sys := sysNow s }, 1, true, 1,
    [.reg v (r.off i) (fullValue s v r i (BitVec.ofNat 16 val))]⟩] } }) rfl hq.waiting hq.missed
    (by exact hroom) rfl rfl rfl
  refine ⟨j, h2, ?_⟩
  have hw : writerRuns { s with jrn := { s.jrn with intake := [⟨{ (viewRec s v 0x01 stOk (r.off i)
    (oldValue s v r i) (fullValue s v r i (BitVec.ofNat 16 val))) with sys := sysNow s }, 1, true, 1,
    [.reg v (r.off i) (fullValue s v r i (BitVec.ofNat 16 val))]⟩] } } = true := by
    show (s.clk.started && s.mode.busUp) = true
    rw [hq.started, hq.busUp]; rfl
  show execJournalCommit _ = _
  unfold execJournalCommit
  rw [if_pos hw, h1]
  simp only [applyChange, writeCommitted, if_true, findReg_of_row hr hi]

/-- A command that writes a journaled register, with what the register's write does (R43, R394). -/
theorem commits_of {s : State} {c : Instr} {v : View} {reg : Reg} {r : RegRow} {i w val : Nat} {f : State → State}
    (hr : rowOf reg = some r) (hh : r.half ≠ .hi) (hj : journaling r val = .write) (hm : r.reg ≠ .qeMigrateLo)
    (hx : exec c s = .next (writeReg reg i v w s)) (hw : fullValue s v r i (BitVec.ofNat 16 w) = val)
    (hf : ∀ j, regApply { s with jrn := j } v r i val = f { s with jrn := j })
    (h1 : ∀ j, s.side.acc.inProgress = false → (f { s with jrn := j }).side.acc.inProgress = false)
    (h2 : ∀ j, s.tap.acc.inProgress = false → (f { s with jrn := j }).tap.acc.inProgress = false) :
    s.commits c v reg i val f := by
  rintro ⟨hq, hroom, r', hr', hi, hv, hro, hc, hb⟩
  obtain rfl : r' = r := by unfold rowOf at hr; rw [hr] at hr'; exact (Option.some.inj hr').symm
  subst hw
  obtain ⟨j, hj1, hj2⟩ := write_then_commit hq hroom hr hi hv hro hh hc hb hj hm
  refine ⟨j, hj1, _, hx, ?_⟩
  rw [hj2, finishWrite_idle (by rw [hf]; exact h1 j hq.side) (by rw [hf]; exact h2 j hq.tap), hf]

end Sys2Proof.Laws
end

