-- ==== Sys2Proof/Laws/PerInstr.lean ====
section
/-! SUPPORT. Per-command law: a well-formed command that a view sends names a view that exists. -/

namespace Sys2Proof.Laws.Sender

/-- A well-formed command's sender exists (R45, Table 19-2). -/
def Statement (i : Instr) : Prop := i.wf = true → ∀ v, i.sender = some v → wfView v = true

/-- The first of two checks that both hold. -/
theorem first {a b : Bool} (h : (a && b) = true) : a = true := (Bool.and_eq_true_iff.mp h).1

theorem powerOnReset (cause : PorCause) (vddqHeld : Bool) : Statement (Instr.powerOnReset cause vddqHeld) :=
  fun _ _ hv => nomatch hv
theorem supplyLoss : Statement (Instr.supplyLoss) :=
  fun _ _ hv => nomatch hv
theorem rstN : Statement (Instr.rstN) :=
  fun _ _ hv => nomatch hv
theorem resetRelease (vccio : BitVec 32) (senseBad : List Nat) : Statement (Instr.resetRelease vccio senseBad) :=
  fun _ _ hv => nomatch hv
theorem fallbackLoad : Statement (Instr.fallbackLoad) :=
  fun _ _ hv => nomatch hv
theorem refFault (absent : Bool) : Statement (Instr.refFault absent) :=
  fun _ _ hv => nomatch hv
theorem refRelock : Statement (Instr.refRelock) :=
  fun _ _ hv => nomatch hv
theorem registerWrite (v : View) (off : Nat) (be : BitVec 4) (val : BitVec 32) :
    Statement (Instr.registerWrite v off be val) :=
  fun h _ hv => Option.some.inj hv ▸ (first h)
theorem hiWrite (v : View) (off : Nat) (val : Word) : Statement (Instr.hiWrite v off val) :=
  fun h _ hv => Option.some.inj hv ▸ (first h)
theorem framedWrite (v : View) (off : Nat) (val : Word) : Statement (Instr.framedWrite v off val) :=
  fun h _ hv => Option.some.inj hv ▸ (first h)
theorem cancel (v : View) : Statement (Instr.cancel v) :=
  fun h _ hv => Option.some.inj hv ▸ h
theorem registerAbort (v : View) (off : Nat) (write : Bool) (val : Word) : Statement (Instr.registerAbort v off write val) :=
  fun h _ hv => Option.some.inj hv ▸ (first h)
theorem prtCtlLock (v : View) : Statement (Instr.prtCtlLock v) :=
  fun h _ hv => Option.some.inj hv ▸ h
theorem prtRgnWrite (v : View) (k : Nat) (val : Word) : Statement (Instr.prtRgnWrite v k val) :=
  fun h _ hv => Option.some.inj hv ▸ (first h)
theorem brgGateWrite (v : View) (k : Nat) (val : Word) : Statement (Instr.brgGateWrite v k val) :=
  fun h _ hv => Option.some.inj hv ▸ (first h)
theorem mailboxSelect (v : View) (lo : Word) : Statement (Instr.mailboxSelect v lo) :=
  fun h _ hv => Option.some.inj hv ▸ h
theorem mailboxSnapshot (v : View) : Statement (Instr.mailboxSnapshot v) :=
  fun h _ hv => Option.some.inj hv ▸ h
theorem mailboxAbort (v : View) : Statement (Instr.mailboxAbort v) :=
  fun h _ hv => Option.some.inj hv ▸ h
theorem mbxD7Read (v : View) : Statement (Instr.mbxD7Read v) :=
  fun h _ hv => Option.some.inj hv ▸ h
theorem sideWrite (off : Nat) (val : Word) : Statement (Instr.sideWrite off val) :=
  fun _ _ hv => Option.some.inj hv ▸ rfl
theorem sideRead (off : Nat) : Statement (Instr.sideRead off) :=
  fun _ _ hv => Option.some.inj hv ▸ rfl
theorem sideStream (off : Nat) (steps : List StreamStep) : Statement (Instr.sideStream off steps) :=
  fun _ _ hv => Option.some.inj hv ▸ rfl
theorem sideStatus : Statement (Instr.sideStatus) :=
  fun _ _ hv => nomatch hv
theorem sideUnknownOp (op : Byte) : Statement (Instr.sideUnknownOp op) :=
  fun _ _ hv => nomatch hv
theorem sideCsRise : Statement (Instr.sideCsRise) :=
  fun _ _ hv => nomatch hv
theorem tapReset : Statement (Instr.tapReset) :=
  fun _ _ hv => nomatch hv
theorem extest (cells : List (Nat × Bool × Bool)) : Statement (Instr.extest cells) :=
  fun _ _ hv => nomatch hv
theorem idcode : Statement (Instr.idcode) :=
  fun _ _ hv => nomatch hv
theorem samplePreload (cells : List (Nat × Bool × Bool)) : Statement (Instr.samplePreload cells) :=
  fun _ _ hv => nomatch hv
theorem bypass (code : Byte) : Statement (Instr.bypass code) :=
  fun _ _ hv => nomatch hv
theorem regacc (dr : BitVec 48) : Statement (Instr.regacc dr) :=
  fun _ _ hv => Option.some.inj hv ▸ rfl
theorem regaccCapture : Statement (Instr.regaccCapture) :=
  fun _ _ hv => nomatch hv
theorem access (bank : Nat) (pins : Option (BitVec 48)) : Statement (Instr.access bank pins) :=
  fun _ _ hv => nomatch hv
theorem portARead (bank : Nat) (wide : Bool) (addr : Nat) : Statement (Instr.portARead bank wide addr) :=
  fun _ _ hv => nomatch hv
theorem portAWrite (bank : Nat) (wide : Bool) (addr : Nat) (data : Word) :
    Statement (Instr.portAWrite bank wide addr data) :=
  fun _ _ hv => nomatch hv
theorem accAdd (region tile : Nat) (acc : Nat) (pins : Option (BitVec 48)) : Statement (Instr.accAdd region tile acc pins) :=
  fun _ _ hv => nomatch hv
theorem accLoad (region tile : Nat) (acc : Nat) (pins : Option (BitVec 48)) : Statement (Instr.accLoad region tile acc pins) :=
  fun _ _ hv => nomatch hv
theorem accClear (region tile : Nat) (acc : Nat) (pins : Option (BitVec 48)) : Statement (Instr.accClear region tile acc pins) :=
  fun _ _ hv => nomatch hv
theorem ldk (region tile : Nat) (k : Nat) (pins : Option (BitVec 48)) : Statement (Instr.ldk region tile k pins) :=
  fun _ _ hv => nomatch hv
theorem direct (region tile : Nat) (pins : Option (BitVec 48)) : Statement (Instr.direct region tile pins) :=
  fun _ _ hv => nomatch hv
theorem portBRequest (master part : Nat) (addr : Nat) (acc : Acc) : Statement (Instr.portBRequest master part addr acc) :=
  fun _ _ hv => nomatch hv
theorem portBService (bank : Nat) : Statement (Instr.portBService bank) :=
  fun _ _ hv => nomatch hv
theorem bankHandover (v : View) (bank : Nat) (val : Word) : Statement (Instr.bankHandover v bank val) :=
  fun h _ hv => Option.some.inj hv ▸ (first h)
theorem bankFillDone (bank : Nat) : Statement (Instr.bankFillDone bank) :=
  fun _ _ hv => nomatch hv
theorem nop : Statement (Instr.nop) :=
  fun _ _ hv => nomatch hv
theorem fadr : Statement (Instr.fadr) :=
  fun _ _ hv => nomatch hv
theorem regmask : Statement (Instr.regmask) :=
  fun _ _ hv => nomatch hv
theorem frame : Statement (Instr.frame) :=
  fun _ _ hv => nomatch hv
theorem endPkt : Statement (Instr.endPkt) :=
  fun _ _ hv => nomatch hv
theorem loadHeader : Statement (Instr.loadHeader) :=
  fun _ _ hv => nomatch hv
theorem loadChecksDone : Statement (Instr.loadChecksDone) :=
  fun _ _ hv => nomatch hv
theorem startSide (v : View) : Statement (Instr.startSide v) :=
  fun h _ hv => Option.some.inj hv ▸ h
theorem cfgFdatWrite (v : View) (val : Word) : Statement (Instr.cfgFdatWrite v val) :=
  fun h _ hv => Option.some.inj hv ▸ h
theorem abort (v : View) : Statement (Instr.abort v) :=
  fun h _ hv => Option.some.inj hv ▸ h
theorem loadTimeout : Statement (Instr.loadTimeout) :=
  fun _ _ hv => nomatch hv
theorem loadStart : Statement (Instr.loadStart) :=
  fun _ _ hv => nomatch hv
theorem swap (r : Req) : Statement (Instr.swap r) :=
  by
  cases r with
  | reg v val => exact fun h _ hv => Option.some.inj hv ▸ h
  | desc g => exact fun _ _ hv => nomatch hv
theorem swapCancel (r : Req) : Statement (Instr.swapCancel r) :=
  by
  cases r with
  | reg v val => exact fun h _ hv => Option.some.inj hv ▸ h
  | desc g => exact fun _ _ hv => nomatch hv
theorem clear (r : Req) : Statement (Instr.clear r) :=
  by
  cases r with
  | reg v val => exact fun h _ hv => Option.some.inj hv ▸ h
  | desc g => exact fun _ _ hv => nomatch hv
theorem swapEdge (part cg : Nat) : Statement (Instr.swapEdge part cg) :=
  fun _ _ hv => nomatch hv
theorem drainDeadline (qid : Nat) : Statement (Instr.drainDeadline qid) :=
  fun _ _ hv => nomatch hv
theorem configScrubRead (upset shadowUpset : List Nat) : Statement (Instr.configScrubRead upset shadowUpset) :=
  fun _ _ hv => nomatch hv
theorem slotEdge : Statement (Instr.slotEdge) :=
  fun _ _ hv => nomatch hv
theorem oosClear : Statement (Instr.oosClear) :=
  fun _ _ hv => nomatch hv
theorem frameBoundary : Statement (Instr.frameBoundary) :=
  fun _ _ hv => nomatch hv
theorem systimeLoad (v : View) (lo : Word) : Statement (Instr.systimeLoad v lo) :=
  fun h _ hv => Option.some.inj hv ▸ h
theorem timCtlWrite (v : View) (val : Word) : Statement (Instr.timCtlWrite v val) :=
  fun h _ hv => Option.some.inj hv ▸ h
theorem timFlenWrite (v : View) (val : Word) : Statement (Instr.timFlenWrite v val) :=
  fun h _ hv => Option.some.inj hv ▸ h
theorem timHlenWrite (v : View) (val : Word) : Statement (Instr.timHlenWrite v val) :=
  fun h _ hv => Option.some.inj hv ▸ h
theorem timArangeWrite (v : View) (p : Nat) (val : Word) : Statement (Instr.timArangeWrite v p val) :=
  fun h _ hv => Option.some.inj hv ▸ (first h)
theorem almanacEntryWrite (v : View) (lo : Word) : Statement (Instr.almanacEntryWrite v lo) :=
  fun h _ hv => Option.some.inj hv ▸ h
theorem afile (ring : Nat) : Statement (Instr.afile ring) :=
  fun _ _ hv => nomatch hv
theorem afileDone (part : Nat) : Statement (Instr.afileDone part) :=
  fun _ _ hv => nomatch hv
theorem copyPage (r : Req) : Statement (Instr.copyPage r) :=
  by
  cases r with
  | reg v val => exact fun h _ hv => Option.some.inj hv ▸ h
  | desc g => exact fun _ _ hv => nomatch hv
theorem pageCopyDone (part : Nat) : Statement (Instr.pageCopyDone part) :=
  fun _ _ hv => nomatch hv
theorem flip (r : Req) : Statement (Instr.flip r) :=
  by
  cases r with
  | reg v val => exact fun h _ hv => Option.some.inj hv ▸ h
  | desc g => exact fun _ _ hv => nomatch hv
theorem flipCheckDone (part : Nat) : Statement (Instr.flipCheckDone part) :=
  fun _ _ hv => nomatch hv
theorem flipCancel (r : Req) : Statement (Instr.flipCancel r) :=
  by
  cases r with
  | reg v val => exact fun h _ hv => Option.some.inj hv ▸ h
  | desc g => exact fun _ _ hv => nomatch hv
theorem dramRefresh (mc : Nat) : Statement (Instr.dramRefresh mc) :=
  fun _ _ hv => nomatch hv
theorem queueConfig (v : View) (lo : Word) : Statement (Instr.queueConfig v lo) :=
  fun h _ hv => Option.some.inj hv ▸ h
theorem submission (sub : Submission) : Statement (Instr.submission sub) :=
  fun _ _ hv => nomatch hv
theorem admission : Statement (Instr.admission) :=
  fun _ _ hv => nomatch hv
theorem spillReturn (part : Nat) (sense : List DramSense) : Statement (Instr.spillReturn part sense) :=
  fun _ _ hv => nomatch hv
theorem cellDelivery (egress : Nat) : Statement (Instr.cellDelivery egress) :=
  fun _ _ hv => nomatch hv
theorem final (tid : Nat) : Statement (Instr.final tid) :=
  fun _ _ hv => nomatch hv
theorem late (tid : Nat) (leg : Nat) : Statement (Instr.late tid leg) :=
  fun _ _ hv => nomatch hv
theorem dbcnt (fsp n : Nat) : Statement (Instr.dbcnt fsp n) :=
  fun _ _ hv => nomatch hv
theorem fspEntryRead (fsp : Nat) : Statement (Instr.fspEntryRead fsp) :=
  fun _ _ hv => nomatch hv
theorem fspCompletionWord (fsp : Nat) : Statement (Instr.fspCompletionWord fsp) :=
  fun _ _ hv => nomatch hv
theorem fspRingEnable (v : View) (k : Nat) (val : Word) : Statement (Instr.fspRingEnable v k val) :=
  fun h _ hv => Option.some.inj hv ▸ (first h)
theorem fspOwnerWrite (v : View) (k : Nat) (val : Word) : Statement (Instr.fspOwnerWrite v k val) :=
  fun h _ hv => Option.some.inj hv ▸ (first h)
theorem migrate (r : Req) : Statement (Instr.migrate r) :=
  by
  cases r with
  | reg v val => exact fun h _ hv => Option.some.inj hv ▸ h
  | desc g => exact fun _ _ hv => nomatch hv
theorem sqDoorbell (page : Nat) (val : BitVec 32) (off size : Nat) : Statement (Instr.sqDoorbell page val off size) :=
  fun _ _ hv => nomatch hv
theorem cqDoorbell (page : Nat) (val : BitVec 32) (off size : Nat) : Statement (Instr.cqDoorbell page val off size) :=
  fun _ _ hv => nomatch hv
theorem ringConfig (v : View) (val : Word) : Statement (Instr.ringConfig v val) :=
  fun h _ hv => Option.some.inj hv ▸ h
theorem descriptorFetch (ring : Nat) (res : Option (List (BitVec 256))) : Statement (Instr.descriptorFetch ring res) :=
  fun _ _ hv => nomatch hv
theorem xfer (ring : Nat) : Statement (Instr.xfer ring) :=
  fun _ _ hv => nomatch hv
theorem rxbuf (ring : Nat) : Statement (Instr.rxbuf ring) :=
  fun _ _ hv => nomatch hv
theorem load (ring : Nat) (mask : List Nat) : Statement (Instr.load ring mask) :=
  fun _ _ hv => nomatch hv
theorem jdrain (ring : Nat) : Statement (Instr.jdrain ring) :=
  fun _ _ hv => nomatch hv
theorem copy (ring : Nat) : Statement (Instr.copy ring) :=
  fun _ _ hv => nomatch hv
theorem copyStart (part : Nat) : Statement (Instr.copyStart part) :=
  fun _ _ hv => nomatch hv
theorem unit (part : Nat) : Statement (Instr.unit part) :=
  fun _ _ hv => nomatch hv
theorem descInvalid (ring : Nat) : Statement (Instr.descInvalid ring) :=
  fun _ _ hv => nomatch hv
theorem completionWrite : Statement (Instr.completionWrite) :=
  fun _ _ hv => nomatch hv
theorem msixCoalesce (ring : Nat) : Statement (Instr.msixCoalesce ring) :=
  fun _ _ hv => nomatch hv
theorem hcapChange (rate width : Nat) : Statement (Instr.hcapChange rate width) :=
  fun _ _ hv => nomatch hv
theorem flr (fn : Nat) : Statement (Instr.flr fn) :=
  fun _ _ hv => nomatch hv
theorem linkDown (why : HostLoss) : Statement (Instr.linkDown why) :=
  fun _ _ hv => nomatch hv
theorem segCtlWrite (v : View) (k : Nat) (val : Word) : Statement (Instr.segCtlWrite v k val) :=
  fun h _ hv => Option.some.inj hv ▸ (first h)
theorem beacon (port : Nat) : Statement (Instr.beacon port) :=
  fun _ _ hv => nomatch hv
theorem beaconReceived (port : Nat) : Statement (Instr.beaconReceived port) :=
  fun _ _ hv => nomatch hv
theorem beaconerr (port : Nat) : Statement (Instr.beaconerr port) :=
  fun _ _ hv => nomatch hv
theorem toTimer (port : Nat) : Statement (Instr.toTimer port) :=
  fun _ _ hv => nomatch hv
theorem transmitOpportunity (port : Nat) (res : TxResult) : Statement (Instr.transmitOpportunity port res) :=
  fun _ _ hv => nomatch hv
theorem segFrameReceived (port : Nat) (ev : MediumEvent) : Statement (Instr.segFrameReceived port ev) :=
  fun _ _ hv => nomatch hv
theorem rosterCommit (v : View) (val : Word) : Statement (Instr.rosterCommit v val) :=
  fun h _ hv => Option.some.inj hv ▸ h
theorem nodeAbsent (port entry : Nat) : Statement (Instr.nodeAbsent port entry) :=
  fun _ _ hv => nomatch hv
theorem slotBlockReceived (k : Nat) (blk : BitVec 56) (ctrl : BitVec 256) (r : Int) :
    Statement (Instr.slotBlockReceived k blk ctrl r) :=
  fun _ _ hv => nomatch hv
theorem linkCellReceived (k : Nat) (map : BitVec 56) (cell : List Byte) : Statement (Instr.linkCellReceived k map cell) :=
  fun _ _ hv => nomatch hv
theorem linkEnable (v : View) (k : Nat) (val : Word) : Statement (Instr.linkEnable v k val) :=
  fun h _ hv => Option.some.inj hv ▸ (first h)
theorem linkDisable (v : View) (k : Nat) (val : Word) : Statement (Instr.linkDisable v k val) :=
  fun h _ hv => Option.some.inj hv ▸ (first h)
theorem laneLock (k : Nat) : Statement (Instr.laneLock k) :=
  fun _ _ hv => nomatch hv
theorem hello (k : Nat) (inc : BitVec 32) : Statement (Instr.hello k inc) :=
  fun _ _ hv => nomatch hv
theorem ack (k : Nat) (pinc : BitVec 32) : Statement (Instr.ack k pinc) :=
  fun _ _ hv => nomatch hv
theorem ready (k : Nat) (inc : BitVec 32) : Statement (Instr.ready k inc) :=
  fun _ _ hv => nomatch hv
theorem handshakeTimeout (k : Nat) : Statement (Instr.handshakeTimeout k) :=
  fun _ _ hv => nomatch hv
theorem absent (k : Nat) : Statement (Instr.absent k) :=
  fun _ _ hv => nomatch hv
theorem retrain (k : Nat) : Statement (Instr.retrain k) :=
  fun _ _ hv => nomatch hv
theorem lockReturn (k : Nat) : Statement (Instr.lockReturn k) :=
  fun _ _ hv => nomatch hv
theorem retryTimer (k : Nat) : Statement (Instr.retryTimer k) :=
  fun _ _ hv => nomatch hv
theorem dramTraining (mc : Nat) (gib : Option Nat) : Statement (Instr.dramTraining mc gib) :=
  fun _ _ hv => nomatch hv
theorem dramRequest (master part : Nat) (addr : Nat) (acc : Acc) : Statement (Instr.dramRequest master part addr acc) :=
  fun _ _ hv => nomatch hv
theorem dramCompletion (mc part : Nat) (sense : List DramSense) : Statement (Instr.dramCompletion mc part sense) :=
  fun _ _ hv => nomatch hv
theorem windowFill (v : View) (w : Nat) (val : Word) : Statement (Instr.windowFill v w val) :=
  fun h _ hv => Option.some.inj hv ▸ (first h)
theorem fillDone (w : Nat) : Statement (Instr.fillDone w) :=
  fun _ _ hv => nomatch hv
theorem scrubVisit (k : Nat) (sense : List DramSense) (onTime : Bool) : Statement (Instr.scrubVisit k sense onTime) :=
  fun _ _ hv => nomatch hv
theorem memLogpop (v : View) (val : Word) : Statement (Instr.memLogpop v val) :=
  fun h _ hv => Option.some.inj hv ▸ h
theorem bnkRetire (v : View) (val : Word) : Statement (Instr.bnkRetire v val) :=
  fun h _ hv => Option.some.inj hv ▸ h
theorem memRetire (v : View) (lo : Word) : Statement (Instr.memRetire v lo) :=
  fun h _ hv => Option.some.inj hv ▸ h
theorem deferredStart : Statement (Instr.deferredStart) :=
  fun _ _ hv => nomatch hv
theorem chatyReset : Statement (Instr.chatyReset) :=
  fun _ _ hv => nomatch hv
theorem info : Statement (Instr.info) :=
  fun _ _ hv => nomatch hv
theorem sense (temp : Int) (power : Nat) : Statement (Instr.sense temp power) :=
  fun _ _ hv => nomatch hv
theorem fwUpdate : Statement (Instr.fwUpdate) :=
  fun _ _ hv => nomatch hv
theorem mgmtTimeout : Statement (Instr.mgmtTimeout) :=
  fun _ _ hv => nomatch hv
theorem hartLoad (h : Nat) (rd : Nat) (addr : BitVec 32) (bytes : Nat) (signed : Bool) :
    Statement (Instr.hartLoad h rd addr bytes signed) :=
  fun _ _ hv => nomatch hv
theorem hartStore (h : Nat) (addr : BitVec 32) (bytes : Nat) (data : BitVec 32) :
    Statement (Instr.hartStore h addr bytes data) :=
  fun _ _ hv => nomatch hv
theorem storeDrain (h : Nat) : Statement (Instr.storeDrain h) :=
  fun _ _ hv => nomatch hv
theorem fence (h : Nat) (pred : BitVec 4) (tso : Bool) : Statement (Instr.fence h pred tso) :=
  fun _ _ hv => nomatch hv
theorem fenceI (h : Nat) : Statement (Instr.fenceI h) :=
  fun _ _ hv => nomatch hv
theorem lr (h : Nat) (rd : Nat) (addr : BitVec 32) : Statement (Instr.lr h rd addr) :=
  fun _ _ hv => nomatch hv
theorem sc (h : Nat) (rd : Nat) (addr : BitVec 32) (data : BitVec 32) (rl : Bool) : Statement (Instr.sc h rd addr data rl) :=
  fun _ _ hv => nomatch hv
theorem amo (h : Nat) (rd : Nat) (op : AmoOp) (addr : BitVec 32) (data : BitVec 32) (rl : Bool) :
    Statement (Instr.amo h rd op addr data rl) :=
  fun _ _ hv => nomatch hv
theorem wfi (h : Nat) : Statement (Instr.wfi h) :=
  fun _ _ hv => nomatch hv
theorem hartTrap (h : Nat) (interrupt : Bool) (code : Nat) (tval : BitVec 32) :
    Statement (Instr.hartTrap h interrupt code tval) :=
  fun _ _ hv => nomatch hv
theorem hartRun (v : View) (h : Nat) (val : Word) : Statement (Instr.hartRun v h val) :=
  fun h _ hv => Option.some.inj hv ▸ (first h)
theorem rst (v : View) (h : Nat) (val : Word) : Statement (Instr.rst v h val) :=
  fun h _ hv => Option.some.inj hv ▸ (first h)
theorem evtClaim (v : View) (h : Nat) : Statement (Instr.evtClaim v h) :=
  fun h _ hv => Option.some.inj hv ▸ (first h)
theorem pinConfigWrite (v : View) (pin : Nat) (aux : Bool) (val : Word) : Statement (Instr.pinConfigWrite v pin aux val) :=
  fun h _ hv => Option.some.inj hv ▸ (first h)
theorem switchEdge (pin : Nat) : Statement (Instr.switchEdge pin) :=
  fun _ _ hv => nomatch hv
theorem pinSet (v : View) (g : Nat) (val : Word) : Statement (Instr.pinSet v g val) :=
  fun h _ hv => Option.some.inj hv ▸ (first h)
theorem pinClr (v : View) (g : Nat) (val : Word) : Statement (Instr.pinClr v g val) :=
  fun h _ hv => Option.some.inj hv ▸ (first h)
theorem pinTgl (v : View) (g : Nat) (val : Word) : Statement (Instr.pinTgl v g val) :=
  fun h _ hv => Option.some.inj hv ▸ (first h)
theorem edgeCommit (v : View) (val : Word) : Statement (Instr.edgeCommit v val) :=
  fun h _ hv => Option.some.inj hv ▸ h
theorem timedEdgeApply (pin : Nat) : Statement (Instr.timedEdgeApply pin) :=
  fun _ _ hv => nomatch hv
theorem pinLevelChange (pin : Nat) (level : Bool) : Statement (Instr.pinLevelChange pin level) :=
  fun _ _ hv => nomatch hv
theorem pinTpop (v : View) (val : Word) : Statement (Instr.pinTpop v val) :=
  fun h _ hv => Option.some.inj hv ▸ h
theorem patternCommit (v : View) (val : Word) : Statement (Instr.patternCommit v val) :=
  fun h _ hv => Option.some.inj hv ▸ h
theorem serialControlWrite (v : View) (u : Nat) (val : Word) : Statement (Instr.serialControlWrite v u val) :=
  fun h _ hv => Option.some.inj hv ▸ (first h)
theorem serialByteWrite (v : View) (u : Nat) (val : Word) : Statement (Instr.serialByteWrite v u val) :=
  fun h _ hv => Option.some.inj hv ▸ (first h)
theorem last (v : View) (u : Nat) (byte : Byte) : Statement (Instr.last v u byte) :=
  fun h _ hv => Option.some.inj hv ▸ (first h)
theorem start (v : View) (u : Nat) (byte : Byte) : Statement (Instr.start v u byte) :=
  fun h _ hv => Option.some.inj hv ▸ (first h)
theorem stop (v : View) (u : Nat) (byte : Byte) : Statement (Instr.stop v u byte) :=
  fun h _ hv => Option.some.inj hv ▸ (first h)
theorem readByte (v : View) (u : Nat) (nack : Bool) : Statement (Instr.readByte v u nack) :=
  fun h _ hv => Option.some.inj hv ▸ (first h)
theorem serialDataRead (v : View) (u : Nat) : Statement (Instr.serialDataRead v u) :=
  fun h _ hv => Option.some.inj hv ▸ (first h)
theorem serialByteReceived (u : Nat) (byte : Byte) (err : Bool) : Statement (Instr.serialByteReceived u byte err) :=
  fun _ _ hv => nomatch hv
theorem serialByteSent (u : Nat) (err : Bool) : Statement (Instr.serialByteSent u err) :=
  fun _ _ hv => nomatch hv
theorem eventRaise (src : Nat) : Statement (Instr.eventRaise src) :=
  fun _ _ hv => nomatch hv
theorem eventDelivery (src : Nat) : Statement (Instr.eventDelivery src) :=
  fun _ _ hv => nomatch hv
theorem evtClr (v : View) (val : Word) : Statement (Instr.evtClr v val) :=
  fun h _ hv => Option.some.inj hv ▸ h
theorem evtRteWrite (v : View) (src : Nat) (val : Word) : Statement (Instr.evtRteWrite v src val) :=
  fun h _ hv => Option.some.inj hv ▸ (first h)
theorem doze (v : View) : Statement (Instr.doze v) :=
  fun h _ hv => Option.some.inj hv ▸ h
theorem sleep (v : View) : Statement (Instr.sleep v) :=
  fun h _ hv => Option.some.inj hv ▸ h
theorem deep (v : View) : Statement (Instr.deep v) :=
  fun h _ hv => Option.some.inj hv ▸ h
theorem cancelOrWake (v : View) : Statement (Instr.cancelOrWake v) :=
  fun h _ hv => Option.some.inj hv ▸ h
theorem entryBegin : Statement (Instr.entryBegin) :=
  fun _ _ hv => nomatch hv
theorem avsVoltageChange : Statement (Instr.avsVoltageChange) :=
  fun _ _ hv => nomatch hv
theorem avsRetry : Statement (Instr.avsRetry) :=
  fun _ _ hv => nomatch hv
theorem avsSetpoint (mv : Nat) : Statement (Instr.avsSetpoint mv) :=
  fun _ _ hv => nomatch hv
theorem smbusWake (addr : BitVec 7) : Statement (Instr.smbusWake addr) :=
  fun _ _ hv => nomatch hv
theorem wakePin (pin : Nat) : Statement (Instr.wakePin pin) :=
  fun _ _ hv => nomatch hv
theorem alarm : Statement (Instr.alarm) :=
  fun _ _ hv => nomatch hv
theorem wake : Statement (Instr.wake) :=
  fun _ _ hv => nomatch hv
theorem wakefail : Statement (Instr.wakefail) :=
  fun _ _ hv => nomatch hv
theorem thermWarn : Statement (Instr.thermWarn) :=
  fun _ _ hv => nomatch hv
theorem therm : Statement (Instr.therm) :=
  fun _ _ hv => nomatch hv
theorem thermRelease : Statement (Instr.thermRelease) :=
  fun _ _ hv => nomatch hv
theorem pwrPadRelease (v : View) (val : Word) : Statement (Instr.pwrPadRelease v val) :=
  fun h _ hv => Option.some.inj hv ▸ h
theorem pwrReset (v : View) (val : Word) : Statement (Instr.pwrReset v val) :=
  fun h _ hv => Option.some.inj hv ▸ h
theorem pwrPrst (v : View) (val : Word) : Statement (Instr.pwrPrst v val) :=
  fun h _ hv => Option.some.inj hv ▸ h
theorem toVtest (margin : Bool) : Statement (Instr.toVtest margin) :=
  fun _ _ hv => nomatch hv
theorem toShipped (margin : Bool) : Statement (Instr.toShipped margin) :=
  fun _ _ hv => nomatch hv
theorem sealStep (margin : Bool) : Statement (Instr.sealStep margin) :=
  fun _ _ hv => nomatch hv
theorem unsealStep (margin : Bool) : Statement (Instr.unsealStep margin) :=
  fun _ _ hv => nomatch hv
theorem returnStep (margin : Bool) : Statement (Instr.returnStep margin) :=
  fun _ _ hv => nomatch hv
theorem scrap (margin : Bool) : Statement (Instr.scrap margin) :=
  fun _ _ hv => nomatch hv
theorem burnDone : Statement (Instr.burnDone) :=
  fun _ _ hv => nomatch hv
theorem wipeDone : Statement (Instr.wipeDone) :=
  fun _ _ hv => nomatch hv
theorem keyWrite : Statement (Instr.keyWrite) :=
  fun _ _ hv => nomatch hv
theorem keyClear : Statement (Instr.keyClear) :=
  fun _ _ hv => nomatch hv
theorem dbgCcmd (v : View) (val : Word) : Statement (Instr.dbgCcmd v val) :=
  fun h _ hv => Option.some.inj hv ▸ h
theorem dbgChal : Statement (Instr.dbgChal) :=
  fun _ _ hv => nomatch hv
theorem challengeLapse : Statement (Instr.challengeLapse) :=
  fun _ _ hv => nomatch hv
theorem dbgRdat (v : View) (val : Word) : Statement (Instr.dbgRdat v val) :=
  fun h _ hv => Option.some.inj hv ▸ h
theorem go (v : View) : Statement (Instr.go v) :=
  fun h _ hv => Option.some.inj hv ▸ h
theorem clr (v : View) : Statement (Instr.clr v) :=
  fun h _ hv => Option.some.inj hv ▸ h
theorem dbgResp : Statement (Instr.dbgResp) :=
  fun _ _ hv => nomatch hv
theorem responseIntake : Statement (Instr.responseIntake) :=
  fun _ _ hv => nomatch hv
theorem responseCheck (margin : Bool) : Statement (Instr.responseCheck margin) :=
  fun _ _ hv => nomatch hv
theorem openSession (v : View) : Statement (Instr.openSession v) :=
  fun h _ hv => Option.some.inj hv ▸ h
theorem journalCommit : Statement (Instr.journalCommit) :=
  fun _ _ hv => nomatch hv
theorem jdrainClose : Statement (Instr.jdrainClose) :=
  fun _ _ hv => nomatch hv
theorem journalSpill (ok : Bool) : Statement (Instr.journalSpill ok) :=
  fun _ _ hv => nomatch hv
theorem freeze (v : View) (val : Word) : Statement (Instr.freeze v val) :=
  fun h _ hv => Option.some.inj hv ▸ h
theorem freezeEdge (scope : Nat) : Statement (Instr.freezeEdge scope) :=
  fun _ _ hv => nomatch hv
theorem release (v : View) (val : Word) : Statement (Instr.release v val) :=
  fun h _ hv => Option.some.inj hv ▸ h
theorem resumeEdge (scope : Nat) : Statement (Instr.resumeEdge scope) :=
  fun _ _ hv => nomatch hv
theorem dbgPrgn (v : View) (val : Word) : Statement (Instr.dbgPrgn v val) :=
  fun h _ hv => Option.some.inj hv ▸ h
theorem dbgPlineWrite (v : View) (k : Nat) (val : Word) : Statement (Instr.dbgPlineWrite v k val) :=
  fun h _ hv => Option.some.inj hv ▸ (first h)
theorem flRead : Statement (Instr.flRead) :=
  fun _ _ hv => nomatch hv
theorem flProg : Statement (Instr.flProg) :=
  fun _ _ hv => nomatch hv
theorem sectorErase : Statement (Instr.sectorErase) :=
  fun _ _ hv => nomatch hv
theorem blockErase : Statement (Instr.blockErase) :=
  fun _ _ hv => nomatch hv
theorem markBad : Statement (Instr.markBad) :=
  fun _ _ hv => nomatch hv
theorem eraseDone : Statement (Instr.eraseDone) :=
  fun _ _ hv => nomatch hv
theorem erasefail : Statement (Instr.erasefail) :=
  fun _ _ hv => nomatch hv
theorem eraseSuspend : Statement (Instr.eraseSuspend) :=
  fun _ _ hv => nomatch hv
theorem eraseResume : Statement (Instr.eraseResume) :=
  fun _ _ hv => nomatch hv
theorem quotaCommit (v : View) (p : Nat) (lo : Word) : Statement (Instr.quotaCommit v p lo) :=
  fun h _ hv => Option.some.inj hv ▸ (first h)
theorem userClockEdge : Statement (Instr.userClockEdge) :=
  fun _ _ hv => nomatch hv
theorem csmaAttempt (port : Nat) (res : TxResult) : Statement (Instr.csmaAttempt port res) :=
  fun _ _ hv => nomatch hv
theorem hostReadCompletion (id : Nat) (res : HostRead) : Statement (Instr.hostReadCompletion id res) :=
  fun _ _ hv => nomatch hv
theorem configurationSpaceWrite (fn : Nat) (w : CfgWrite) : Statement (Instr.configurationSpaceWrite fn w) :=
  fun _ _ hv => nomatch hv
theorem mgmtCodeInvalid : Statement (Instr.mgmtCodeInvalid) :=
  fun _ _ hv => nomatch hv

end Sys2Proof.Laws.Sender
end

