-- ==== Sys2Proof/Laws/State.lean ====
section
/-! SUPPORT. What the named updates of the state do to each field: a read after the update, and one lemma per field that it
leaves alone, so that no proof unfolds a record update. -/

namespace Sys2Proof.Laws

open Sys2Proof.Machine

/-! ### Read after update -/

@[simp] theorem setDev_dev (s : State) (off : Nat) (d w : Word) : dev (setDev s off d w) off d = w := tget_tset_same ..

theorem setDev_dev_ne (s : State) {off x : Nat} (d w e : Word) (h : x ≠ off) : dev (setDev s off d w) x e = dev s x e :=
  tget_tset_ne _ _ _ _ h

@[simp] theorem setVw_vw (s : State) (v : View) (off : Nat) (d w : Word) : vw (setVw s v off d w) v off d = w :=
  tget_tset_same ..

theorem setVw_vw_ne (s : State) {v u : View} {off x : Nat} (d w e : Word)
    (h : viewKey (viewCode u) x ≠ viewKey (viewCode v) off) : vw (setVw s v off d w) u x e = vw s u x e :=
  tget_tset_ne _ _ _ _ h

@[simp] theorem setRing_ringOf (s : State) (g : Nat) (r : Ring) : ringOf (setRing s g r) g = r := tget_tset_same ..

theorem setRing_ringOf_ne (s : State) {g k : Nat} (r : Ring) (h : k ≠ g) : ringOf (setRing s g r) k = ringOf s k :=
  tget_tset_ne _ _ _ _ h

@[simp] theorem setPin_pinOf (s : State) (p : Nat) (x : Pin) : pinOf (setPin s p x) p = x := tget_tset_same ..

theorem setPin_pinOf_ne (s : State) {p q : Nat} (x : Pin) (h : q ≠ p) : pinOf (setPin s p x) q = pinOf s q :=
  tget_tset_ne _ _ _ _ h

@[simp] theorem setSerial_serialOf (s : State) (u : Nat) (x : Serial) : serialOf (setSerial s u x) u = x := tget_tset_same ..

@[simp] theorem setSeg_segOf (s : State) (k : Nat) (f : Seg → Seg) : segOf (setSeg s k f) k = f (segOf s k) := tget_tmod_same ..

@[simp] theorem setLink_linkOf (s : State) (k : Nat) (f : Link → Link) : linkOf (setLink s k f) k = f (linkOf s k) :=
  tget_tmod_same ..

@[simp] theorem setAlm_almOf (s : State) (p : Nat) (f : AlmPart → AlmPart) : almOf (setAlm s p f) p = f (almOf s p) :=
  tget_tmod_same ..

theorem setHart_hartOf (s : State) {h : Nat} (x : Hart) (hh : h < 4) : hartOf (setHart s h x) h = x := by
  match h, hh with
  | 0, _ => rfl
  | 1, _ => rfl
  | 2, _ => rfl
  | 3, _ => rfl

@[simp] theorem setQueue_queueOf (s : State) (q : Nat) (f : Queue → Queue) : queueOf (setQueue s q f) q = f (queueOf s q) :=
  tget_tmod_same ..

theorem setQueue_queueOf_ne (s : State) {q r : Nat} (f : Queue → Queue) (h : r ≠ q) : queueOf (setQueue s q f) r = queueOf s r :=
  tget_tset_ne _ _ _ _ h

@[simp] theorem setFsp_fspOf (s : State) (k : Nat) (f : Fsp → Fsp) : fspOf (setFsp s k f) k = f (fspOf s k) := tget_tmod_same ..

@[simp] theorem emit_outs (s : State) (o : Out) : (emit s o).outs = s.outs ++ [o] := rfl

/-! ### Fields left alone -/

@[simp] theorem setDev_mode (s : State) (off : Nat) (d w : Word) : (setDev s off d w).mode = s.mode := rfl
@[simp] theorem setDev_last (s : State) (off : Nat) (d w : Word) : (setDev s off d w).last = s.last := rfl
@[simp] theorem setDev_runSince (s : State) (off : Nat) (d w : Word) : (setDev s off d w).runSince = s.runSince := rfl
@[simp] theorem setDev_clk (s : State) (off : Nat) (d w : Word) : (setDev s off d w).clk = s.clk := rfl
@[simp] theorem setDev_pwr (s : State) (off : Nat) (d w : Word) : (setDev s off d w).pwr = s.pwr := rfl
@[simp] theorem setDev_vregs (s : State) (off : Nat) (d w : Word) : (setDev s off d w).vregs = s.vregs := rfl
@[simp] theorem setDev_pregs (s : State) (off : Nat) (d w : Word) : (setDev s off d w).pregs = s.pregs := rfl
@[simp] theorem setDev_hold (s : State) (off : Nat) (d w : Word) : (setDev s off d w).hold = s.hold := rfl
@[simp] theorem setDev_framed (s : State) (off : Nat) (d w : Word) : (setDev s off d w).framed = s.framed := rfl
@[simp] theorem setDev_mbx (s : State) (off : Nat) (d w : Word) : (setDev s off d w).mbx = s.mbx := rfl
@[simp] theorem setDev_side (s : State) (off : Nat) (d w : Word) : (setDev s off d w).side = s.side := rfl
@[simp] theorem setDev_tap (s : State) (off : Nat) (d w : Word) : (setDev s off d w).tap = s.tap := rfl
@[simp] theorem setDev_jrn (s : State) (off : Nat) (d w : Word) : (setDev s off d w).jrn = s.jrn := rfl
@[simp] theorem setDev_fab (s : State) (off : Nat) (d w : Word) : (setDev s off d w).fab = s.fab := rfl
@[simp] theorem setDev_bank (s : State) (off : Nat) (d w : Word) : (setDev s off d w).bank = s.bank := rfl
@[simp] theorem setDev_ldr (s : State) (off : Nat) (d w : Word) : (setDev s off d w).ldr = s.ldr := rfl
@[simp] theorem setDev_swp (s : State) (off : Nat) (d w : Word) : (setDev s off d w).swp = s.swp := rfl
@[simp] theorem setDev_alm (s : State) (off : Nat) (d w : Word) : (setDev s off d w).alm = s.alm := rfl
@[simp] theorem setDev_qe (s : State) (off : Nat) (d w : Word) : (setDev s off d w).qe = s.qe := rfl
@[simp] theorem setDev_host (s : State) (off : Nat) (d w : Word) : (setDev s off d w).host = s.host := rfl
@[simp] theorem setDev_seg (s : State) (off : Nat) (d w : Word) : (setDev s off d w).seg = s.seg := rfl
@[simp] theorem setDev_roster (s : State) (off : Nat) (d w : Word) : (setDev s off d w).roster = s.roster := rfl
@[simp] theorem setDev_link (s : State) (off : Nat) (d w : Word) : (setDev s off d w).link = s.link := rfl
@[simp] theorem setDev_timeSrc (s : State) (off : Nat) (d w : Word) : (setDev s off d w).timeSrc = s.timeSrc := rfl
@[simp] theorem setDev_dram (s : State) (off : Nat) (d w : Word) : (setDev s off d w).dram = s.dram := rfl
@[simp] theorem setDev_mgt (s : State) (off : Nat) (d w : Word) : (setDev s off d w).mgt = s.mgt := rfl
@[simp] theorem setDev_hart0 (s : State) (off : Nat) (d w : Word) : (setDev s off d w).hart0 = s.hart0 := rfl
@[simp] theorem setDev_hart1 (s : State) (off : Nat) (d w : Word) : (setDev s off d w).hart1 = s.hart1 := rfl
@[simp] theorem setDev_hart2 (s : State) (off : Nat) (d w : Word) : (setDev s off d w).hart2 = s.hart2 := rfl
@[simp] theorem setDev_hart3 (s : State) (off : Nat) (d w : Word) : (setDev s off d w).hart3 = s.hart3 := rfl
@[simp] theorem setDev_pins (s : State) (off : Nat) (d w : Word) : (setDev s off d w).pins = s.pins := rfl
@[simp] theorem setDev_ev (s : State) (off : Nat) (d w : Word) : (setDev s off d w).ev = s.ev := rfl
@[simp] theorem setDev_lc (s : State) (off : Nat) (d w : Word) : (setDev s off d w).lc = s.lc := rfl
@[simp] theorem setDev_cap (s : State) (off : Nat) (d w : Word) : (setDev s off d w).cap = s.cap := rfl
@[simp] theorem setDev_flash (s : State) (off : Nat) (d w : Word) : (setDev s off d w).flash = s.flash := rfl
@[simp] theorem setDev_outs (s : State) (off : Nat) (d w : Word) : (setDev s off d w).outs = s.outs := rfl
@[simp] theorem setDev_freeCtr (s : State) (off : Nat) (d w : Word) : (setDev s off d w).freeCtr = s.freeCtr := rfl
@[simp] theorem setDev_pending (s : State) (off : Nat) (d w : Word) : (setDev s off d w).pending = s.pending := rfl

@[simp] theorem setVw_mode (s : State) (v : View) (off : Nat) (d w : Word) : (setVw s v off d w).mode = s.mode := rfl
@[simp] theorem setVw_last (s : State) (v : View) (off : Nat) (d w : Word) : (setVw s v off d w).last = s.last := rfl
@[simp] theorem setVw_runSince (s : State) (v : View) (off : Nat) (d w : Word) : (setVw s v off d w).runSince = s.runSince := rfl
@[simp] theorem setVw_clk (s : State) (v : View) (off : Nat) (d w : Word) : (setVw s v off d w).clk = s.clk := rfl
@[simp] theorem setVw_pwr (s : State) (v : View) (off : Nat) (d w : Word) : (setVw s v off d w).pwr = s.pwr := rfl
@[simp] theorem setVw_regs (s : State) (v : View) (off : Nat) (d w : Word) : (setVw s v off d w).regs = s.regs := rfl
@[simp] theorem setVw_pregs (s : State) (v : View) (off : Nat) (d w : Word) : (setVw s v off d w).pregs = s.pregs := rfl
@[simp] theorem setVw_hold (s : State) (v : View) (off : Nat) (d w : Word) : (setVw s v off d w).hold = s.hold := rfl
@[simp] theorem setVw_framed (s : State) (v : View) (off : Nat) (d w : Word) : (setVw s v off d w).framed = s.framed := rfl
@[simp] theorem setVw_mbx (s : State) (v : View) (off : Nat) (d w : Word) : (setVw s v off d w).mbx = s.mbx := rfl
@[simp] theorem setVw_side (s : State) (v : View) (off : Nat) (d w : Word) : (setVw s v off d w).side = s.side := rfl
@[simp] theorem setVw_tap (s : State) (v : View) (off : Nat) (d w : Word) : (setVw s v off d w).tap = s.tap := rfl
@[simp] theorem setVw_jrn (s : State) (v : View) (off : Nat) (d w : Word) : (setVw s v off d w).jrn = s.jrn := rfl
@[simp] theorem setVw_fab (s : State) (v : View) (off : Nat) (d w : Word) : (setVw s v off d w).fab = s.fab := rfl
@[simp] theorem setVw_bank (s : State) (v : View) (off : Nat) (d w : Word) : (setVw s v off d w).bank = s.bank := rfl
@[simp] theorem setVw_ldr (s : State) (v : View) (off : Nat) (d w : Word) : (setVw s v off d w).ldr = s.ldr := rfl
@[simp] theorem setVw_swp (s : State) (v : View) (off : Nat) (d w : Word) : (setVw s v off d w).swp = s.swp := rfl
@[simp] theorem setVw_alm (s : State) (v : View) (off : Nat) (d w : Word) : (setVw s v off d w).alm = s.alm := rfl
@[simp] theorem setVw_qe (s : State) (v : View) (off : Nat) (d w : Word) : (setVw s v off d w).qe = s.qe := rfl
@[simp] theorem setVw_host (s : State) (v : View) (off : Nat) (d w : Word) : (setVw s v off d w).host = s.host := rfl
@[simp] theorem setVw_seg (s : State) (v : View) (off : Nat) (d w : Word) : (setVw s v off d w).seg = s.seg := rfl
@[simp] theorem setVw_roster (s : State) (v : View) (off : Nat) (d w : Word) : (setVw s v off d w).roster = s.roster := rfl
@[simp] theorem setVw_link (s : State) (v : View) (off : Nat) (d w : Word) : (setVw s v off d w).link = s.link := rfl
@[simp] theorem setVw_timeSrc (s : State) (v : View) (off : Nat) (d w : Word) : (setVw s v off d w).timeSrc = s.timeSrc := rfl
@[simp] theorem setVw_dram (s : State) (v : View) (off : Nat) (d w : Word) : (setVw s v off d w).dram = s.dram := rfl
@[simp] theorem setVw_mgt (s : State) (v : View) (off : Nat) (d w : Word) : (setVw s v off d w).mgt = s.mgt := rfl
@[simp] theorem setVw_hart0 (s : State) (v : View) (off : Nat) (d w : Word) : (setVw s v off d w).hart0 = s.hart0 := rfl
@[simp] theorem setVw_hart1 (s : State) (v : View) (off : Nat) (d w : Word) : (setVw s v off d w).hart1 = s.hart1 := rfl
@[simp] theorem setVw_hart2 (s : State) (v : View) (off : Nat) (d w : Word) : (setVw s v off d w).hart2 = s.hart2 := rfl
@[simp] theorem setVw_hart3 (s : State) (v : View) (off : Nat) (d w : Word) : (setVw s v off d w).hart3 = s.hart3 := rfl
@[simp] theorem setVw_pins (s : State) (v : View) (off : Nat) (d w : Word) : (setVw s v off d w).pins = s.pins := rfl
@[simp] theorem setVw_ev (s : State) (v : View) (off : Nat) (d w : Word) : (setVw s v off d w).ev = s.ev := rfl
@[simp] theorem setVw_lc (s : State) (v : View) (off : Nat) (d w : Word) : (setVw s v off d w).lc = s.lc := rfl
@[simp] theorem setVw_cap (s : State) (v : View) (off : Nat) (d w : Word) : (setVw s v off d w).cap = s.cap := rfl
@[simp] theorem setVw_flash (s : State) (v : View) (off : Nat) (d w : Word) : (setVw s v off d w).flash = s.flash := rfl
@[simp] theorem setVw_outs (s : State) (v : View) (off : Nat) (d w : Word) : (setVw s v off d w).outs = s.outs := rfl
@[simp] theorem setVw_freeCtr (s : State) (v : View) (off : Nat) (d w : Word) : (setVw s v off d w).freeCtr = s.freeCtr := rfl
@[simp] theorem setVw_pending (s : State) (v : View) (off : Nat) (d w : Word) : (setVw s v off d w).pending = s.pending := rfl

@[simp] theorem setPw_mode (s : State) (p off : Nat) (d w : Word) : (setPw s p off d w).mode = s.mode := rfl
@[simp] theorem setPw_last (s : State) (p off : Nat) (d w : Word) : (setPw s p off d w).last = s.last := rfl
@[simp] theorem setPw_runSince (s : State) (p off : Nat) (d w : Word) : (setPw s p off d w).runSince = s.runSince := rfl
@[simp] theorem setPw_clk (s : State) (p off : Nat) (d w : Word) : (setPw s p off d w).clk = s.clk := rfl
@[simp] theorem setPw_pwr (s : State) (p off : Nat) (d w : Word) : (setPw s p off d w).pwr = s.pwr := rfl
@[simp] theorem setPw_regs (s : State) (p off : Nat) (d w : Word) : (setPw s p off d w).regs = s.regs := rfl
@[simp] theorem setPw_vregs (s : State) (p off : Nat) (d w : Word) : (setPw s p off d w).vregs = s.vregs := rfl
@[simp] theorem setPw_hold (s : State) (p off : Nat) (d w : Word) : (setPw s p off d w).hold = s.hold := rfl
@[simp] theorem setPw_framed (s : State) (p off : Nat) (d w : Word) : (setPw s p off d w).framed = s.framed := rfl
@[simp] theorem setPw_mbx (s : State) (p off : Nat) (d w : Word) : (setPw s p off d w).mbx = s.mbx := rfl
@[simp] theorem setPw_side (s : State) (p off : Nat) (d w : Word) : (setPw s p off d w).side = s.side := rfl
@[simp] theorem setPw_tap (s : State) (p off : Nat) (d w : Word) : (setPw s p off d w).tap = s.tap := rfl
@[simp] theorem setPw_jrn (s : State) (p off : Nat) (d w : Word) : (setPw s p off d w).jrn = s.jrn := rfl
@[simp] theorem setPw_fab (s : State) (p off : Nat) (d w : Word) : (setPw s p off d w).fab = s.fab := rfl
@[simp] theorem setPw_bank (s : State) (p off : Nat) (d w : Word) : (setPw s p off d w).bank = s.bank := rfl
@[simp] theorem setPw_ldr (s : State) (p off : Nat) (d w : Word) : (setPw s p off d w).ldr = s.ldr := rfl
@[simp] theorem setPw_swp (s : State) (p off : Nat) (d w : Word) : (setPw s p off d w).swp = s.swp := rfl
@[simp] theorem setPw_alm (s : State) (p off : Nat) (d w : Word) : (setPw s p off d w).alm = s.alm := rfl
@[simp] theorem setPw_qe (s : State) (p off : Nat) (d w : Word) : (setPw s p off d w).qe = s.qe := rfl
@[simp] theorem setPw_host (s : State) (p off : Nat) (d w : Word) : (setPw s p off d w).host = s.host := rfl
@[simp] theorem setPw_seg (s : State) (p off : Nat) (d w : Word) : (setPw s p off d w).seg = s.seg := rfl
@[simp] theorem setPw_roster (s : State) (p off : Nat) (d w : Word) : (setPw s p off d w).roster = s.roster := rfl
@[simp] theorem setPw_link (s : State) (p off : Nat) (d w : Word) : (setPw s p off d w).link = s.link := rfl
@[simp] theorem setPw_timeSrc (s : State) (p off : Nat) (d w : Word) : (setPw s p off d w).timeSrc = s.timeSrc := rfl
@[simp] theorem setPw_dram (s : State) (p off : Nat) (d w : Word) : (setPw s p off d w).dram = s.dram := rfl
@[simp] theorem setPw_mgt (s : State) (p off : Nat) (d w : Word) : (setPw s p off d w).mgt = s.mgt := rfl
@[simp] theorem setPw_hart0 (s : State) (p off : Nat) (d w : Word) : (setPw s p off d w).hart0 = s.hart0 := rfl
@[simp] theorem setPw_hart1 (s : State) (p off : Nat) (d w : Word) : (setPw s p off d w).hart1 = s.hart1 := rfl
@[simp] theorem setPw_hart2 (s : State) (p off : Nat) (d w : Word) : (setPw s p off d w).hart2 = s.hart2 := rfl
@[simp] theorem setPw_hart3 (s : State) (p off : Nat) (d w : Word) : (setPw s p off d w).hart3 = s.hart3 := rfl
@[simp] theorem setPw_pins (s : State) (p off : Nat) (d w : Word) : (setPw s p off d w).pins = s.pins := rfl
@[simp] theorem setPw_ev (s : State) (p off : Nat) (d w : Word) : (setPw s p off d w).ev = s.ev := rfl
@[simp] theorem setPw_lc (s : State) (p off : Nat) (d w : Word) : (setPw s p off d w).lc = s.lc := rfl
@[simp] theorem setPw_cap (s : State) (p off : Nat) (d w : Word) : (setPw s p off d w).cap = s.cap := rfl
@[simp] theorem setPw_flash (s : State) (p off : Nat) (d w : Word) : (setPw s p off d w).flash = s.flash := rfl
@[simp] theorem setPw_outs (s : State) (p off : Nat) (d w : Word) : (setPw s p off d w).outs = s.outs := rfl
@[simp] theorem setPw_freeCtr (s : State) (p off : Nat) (d w : Word) : (setPw s p off d w).freeCtr = s.freeCtr := rfl
@[simp] theorem setPw_pending (s : State) (p off : Nat) (d w : Word) : (setPw s p off d w).pending = s.pending := rfl

@[simp] theorem regErr_mode (s : State) (v : View) (st : Nat) : (regErr s v st).mode = s.mode := rfl
@[simp] theorem regErr_last (s : State) (v : View) (st : Nat) : (regErr s v st).last = s.last := rfl
@[simp] theorem regErr_runSince (s : State) (v : View) (st : Nat) : (regErr s v st).runSince = s.runSince := rfl
@[simp] theorem regErr_clk (s : State) (v : View) (st : Nat) : (regErr s v st).clk = s.clk := rfl
@[simp] theorem regErr_pwr (s : State) (v : View) (st : Nat) : (regErr s v st).pwr = s.pwr := rfl
@[simp] theorem regErr_regs (s : State) (v : View) (st : Nat) : (regErr s v st).regs = s.regs := rfl
@[simp] theorem regErr_pregs (s : State) (v : View) (st : Nat) : (regErr s v st).pregs = s.pregs := rfl
@[simp] theorem regErr_hold (s : State) (v : View) (st : Nat) : (regErr s v st).hold = s.hold := rfl
@[simp] theorem regErr_framed (s : State) (v : View) (st : Nat) : (regErr s v st).framed = s.framed := rfl
@[simp] theorem regErr_mbx (s : State) (v : View) (st : Nat) : (regErr s v st).mbx = s.mbx := rfl
@[simp] theorem regErr_side (s : State) (v : View) (st : Nat) : (regErr s v st).side = s.side := rfl
@[simp] theorem regErr_tap (s : State) (v : View) (st : Nat) : (regErr s v st).tap = s.tap := rfl
@[simp] theorem regErr_jrn (s : State) (v : View) (st : Nat) : (regErr s v st).jrn = s.jrn := rfl
@[simp] theorem regErr_fab (s : State) (v : View) (st : Nat) : (regErr s v st).fab = s.fab := rfl
@[simp] theorem regErr_bank (s : State) (v : View) (st : Nat) : (regErr s v st).bank = s.bank := rfl
@[simp] theorem regErr_ldr (s : State) (v : View) (st : Nat) : (regErr s v st).ldr = s.ldr := rfl
@[simp] theorem regErr_swp (s : State) (v : View) (st : Nat) : (regErr s v st).swp = s.swp := rfl
@[simp] theorem regErr_alm (s : State) (v : View) (st : Nat) : (regErr s v st).alm = s.alm := rfl
@[simp] theorem regErr_qe (s : State) (v : View) (st : Nat) : (regErr s v st).qe = s.qe := rfl
@[simp] theorem regErr_host (s : State) (v : View) (st : Nat) : (regErr s v st).host = s.host := rfl
@[simp] theorem regErr_seg (s : State) (v : View) (st : Nat) : (regErr s v st).seg = s.seg := rfl
@[simp] theorem regErr_roster (s : State) (v : View) (st : Nat) : (regErr s v st).roster = s.roster := rfl
@[simp] theorem regErr_link (s : State) (v : View) (st : Nat) : (regErr s v st).link = s.link := rfl
@[simp] theorem regErr_timeSrc (s : State) (v : View) (st : Nat) : (regErr s v st).timeSrc = s.timeSrc := rfl
@[simp] theorem regErr_dram (s : State) (v : View) (st : Nat) : (regErr s v st).dram = s.dram := rfl
@[simp] theorem regErr_mgt (s : State) (v : View) (st : Nat) : (regErr s v st).mgt = s.mgt := rfl
@[simp] theorem regErr_hart0 (s : State) (v : View) (st : Nat) : (regErr s v st).hart0 = s.hart0 := rfl
@[simp] theorem regErr_hart1 (s : State) (v : View) (st : Nat) : (regErr s v st).hart1 = s.hart1 := rfl
@[simp] theorem regErr_hart2 (s : State) (v : View) (st : Nat) : (regErr s v st).hart2 = s.hart2 := rfl
@[simp] theorem regErr_hart3 (s : State) (v : View) (st : Nat) : (regErr s v st).hart3 = s.hart3 := rfl
@[simp] theorem regErr_pins (s : State) (v : View) (st : Nat) : (regErr s v st).pins = s.pins := rfl
@[simp] theorem regErr_ev (s : State) (v : View) (st : Nat) : (regErr s v st).ev = s.ev := rfl
@[simp] theorem regErr_lc (s : State) (v : View) (st : Nat) : (regErr s v st).lc = s.lc := rfl
@[simp] theorem regErr_cap (s : State) (v : View) (st : Nat) : (regErr s v st).cap = s.cap := rfl
@[simp] theorem regErr_flash (s : State) (v : View) (st : Nat) : (regErr s v st).flash = s.flash := rfl
@[simp] theorem regErr_outs (s : State) (v : View) (st : Nat) : (regErr s v st).outs = s.outs := rfl
@[simp] theorem regErr_freeCtr (s : State) (v : View) (st : Nat) : (regErr s v st).freeCtr = s.freeCtr := rfl
@[simp] theorem regErr_pending (s : State) (v : View) (st : Nat) : (regErr s v st).pending = s.pending := rfl

@[simp] theorem emit_mode (s : State) (o : Out) : (emit s o).mode = s.mode := rfl
@[simp] theorem emit_last (s : State) (o : Out) : (emit s o).last = s.last := rfl
@[simp] theorem emit_runSince (s : State) (o : Out) : (emit s o).runSince = s.runSince := rfl
@[simp] theorem emit_clk (s : State) (o : Out) : (emit s o).clk = s.clk := rfl
@[simp] theorem emit_pwr (s : State) (o : Out) : (emit s o).pwr = s.pwr := rfl
@[simp] theorem emit_regs (s : State) (o : Out) : (emit s o).regs = s.regs := rfl
@[simp] theorem emit_vregs (s : State) (o : Out) : (emit s o).vregs = s.vregs := rfl
@[simp] theorem emit_pregs (s : State) (o : Out) : (emit s o).pregs = s.pregs := rfl
@[simp] theorem emit_hold (s : State) (o : Out) : (emit s o).hold = s.hold := rfl
@[simp] theorem emit_framed (s : State) (o : Out) : (emit s o).framed = s.framed := rfl
@[simp] theorem emit_mbx (s : State) (o : Out) : (emit s o).mbx = s.mbx := rfl
@[simp] theorem emit_side (s : State) (o : Out) : (emit s o).side = s.side := rfl
@[simp] theorem emit_tap (s : State) (o : Out) : (emit s o).tap = s.tap := rfl
@[simp] theorem emit_jrn (s : State) (o : Out) : (emit s o).jrn = s.jrn := rfl
@[simp] theorem emit_fab (s : State) (o : Out) : (emit s o).fab = s.fab := rfl
@[simp] theorem emit_bank (s : State) (o : Out) : (emit s o).bank = s.bank := rfl
@[simp] theorem emit_ldr (s : State) (o : Out) : (emit s o).ldr = s.ldr := rfl
@[simp] theorem emit_swp (s : State) (o : Out) : (emit s o).swp = s.swp := rfl
@[simp] theorem emit_alm (s : State) (o : Out) : (emit s o).alm = s.alm := rfl
@[simp] theorem emit_qe (s : State) (o : Out) : (emit s o).qe = s.qe := rfl
@[simp] theorem emit_host (s : State) (o : Out) : (emit s o).host = s.host := rfl
@[simp] theorem emit_seg (s : State) (o : Out) : (emit s o).seg = s.seg := rfl
@[simp] theorem emit_roster (s : State) (o : Out) : (emit s o).roster = s.roster := rfl
@[simp] theorem emit_link (s : State) (o : Out) : (emit s o).link = s.link := rfl
@[simp] theorem emit_timeSrc (s : State) (o : Out) : (emit s o).timeSrc = s.timeSrc := rfl
@[simp] theorem emit_dram (s : State) (o : Out) : (emit s o).dram = s.dram := rfl
@[simp] theorem emit_mgt (s : State) (o : Out) : (emit s o).mgt = s.mgt := rfl
@[simp] theorem emit_hart0 (s : State) (o : Out) : (emit s o).hart0 = s.hart0 := rfl
@[simp] theorem emit_hart1 (s : State) (o : Out) : (emit s o).hart1 = s.hart1 := rfl
@[simp] theorem emit_hart2 (s : State) (o : Out) : (emit s o).hart2 = s.hart2 := rfl
@[simp] theorem emit_hart3 (s : State) (o : Out) : (emit s o).hart3 = s.hart3 := rfl
@[simp] theorem emit_pins (s : State) (o : Out) : (emit s o).pins = s.pins := rfl
@[simp] theorem emit_ev (s : State) (o : Out) : (emit s o).ev = s.ev := rfl
@[simp] theorem emit_lc (s : State) (o : Out) : (emit s o).lc = s.lc := rfl
@[simp] theorem emit_cap (s : State) (o : Out) : (emit s o).cap = s.cap := rfl
@[simp] theorem emit_flash (s : State) (o : Out) : (emit s o).flash = s.flash := rfl
@[simp] theorem emit_freeCtr (s : State) (o : Out) : (emit s o).freeCtr = s.freeCtr := rfl
@[simp] theorem emit_pending (s : State) (o : Out) : (emit s o).pending = s.pending := rfl

@[simp] theorem journal_mode (s : State) (r : JRec) (b : Bool) (n : Nat) (c : Change) : (journal s r b n c).mode = s.mode := rfl
@[simp] theorem journal_last (s : State) (r : JRec) (b : Bool) (n : Nat) (c : Change) : (journal s r b n c).last = s.last := rfl
@[simp] theorem journal_runSince (s : State) (r : JRec) (b : Bool) (n : Nat) (c : Change) : (journal s r b n c).runSince = s.runSince := rfl
@[simp] theorem journal_clk (s : State) (r : JRec) (b : Bool) (n : Nat) (c : Change) : (journal s r b n c).clk = s.clk := rfl
@[simp] theorem journal_pwr (s : State) (r : JRec) (b : Bool) (n : Nat) (c : Change) : (journal s r b n c).pwr = s.pwr := rfl
@[simp] theorem journal_regs (s : State) (r : JRec) (b : Bool) (n : Nat) (c : Change) : (journal s r b n c).regs = s.regs := rfl
@[simp] theorem journal_vregs (s : State) (r : JRec) (b : Bool) (n : Nat) (c : Change) : (journal s r b n c).vregs = s.vregs := rfl
@[simp] theorem journal_pregs (s : State) (r : JRec) (b : Bool) (n : Nat) (c : Change) : (journal s r b n c).pregs = s.pregs := rfl
@[simp] theorem journal_hold (s : State) (r : JRec) (b : Bool) (n : Nat) (c : Change) : (journal s r b n c).hold = s.hold := rfl
@[simp] theorem journal_framed (s : State) (r : JRec) (b : Bool) (n : Nat) (c : Change) : (journal s r b n c).framed = s.framed := rfl
@[simp] theorem journal_mbx (s : State) (r : JRec) (b : Bool) (n : Nat) (c : Change) : (journal s r b n c).mbx = s.mbx := rfl
@[simp] theorem journal_side (s : State) (r : JRec) (b : Bool) (n : Nat) (c : Change) : (journal s r b n c).side = s.side := rfl
@[simp] theorem journal_tap (s : State) (r : JRec) (b : Bool) (n : Nat) (c : Change) : (journal s r b n c).tap = s.tap := rfl
@[simp] theorem journal_fab (s : State) (r : JRec) (b : Bool) (n : Nat) (c : Change) : (journal s r b n c).fab = s.fab := rfl
@[simp] theorem journal_bank (s : State) (r : JRec) (b : Bool) (n : Nat) (c : Change) : (journal s r b n c).bank = s.bank := rfl
@[simp] theorem journal_ldr (s : State) (r : JRec) (b : Bool) (n : Nat) (c : Change) : (journal s r b n c).ldr = s.ldr := rfl
@[simp] theorem journal_swp (s : State) (r : JRec) (b : Bool) (n : Nat) (c : Change) : (journal s r b n c).swp = s.swp := rfl
@[simp] theorem journal_alm (s : State) (r : JRec) (b : Bool) (n : Nat) (c : Change) : (journal s r b n c).alm = s.alm := rfl
@[simp] theorem journal_qe (s : State) (r : JRec) (b : Bool) (n : Nat) (c : Change) : (journal s r b n c).qe = s.qe := rfl
@[simp] theorem journal_host (s : State) (r : JRec) (b : Bool) (n : Nat) (c : Change) : (journal s r b n c).host = s.host := rfl
@[simp] theorem journal_seg (s : State) (r : JRec) (b : Bool) (n : Nat) (c : Change) : (journal s r b n c).seg = s.seg := rfl
@[simp] theorem journal_roster (s : State) (r : JRec) (b : Bool) (n : Nat) (c : Change) : (journal s r b n c).roster = s.roster := rfl
@[simp] theorem journal_link (s : State) (r : JRec) (b : Bool) (n : Nat) (c : Change) : (journal s r b n c).link = s.link := rfl
@[simp] theorem journal_timeSrc (s : State) (r : JRec) (b : Bool) (n : Nat) (c : Change) : (journal s r b n c).timeSrc = s.timeSrc := rfl
@[simp] theorem journal_dram (s : State) (r : JRec) (b : Bool) (n : Nat) (c : Change) : (journal s r b n c).dram = s.dram := rfl
@[simp] theorem journal_mgt (s : State) (r : JRec) (b : Bool) (n : Nat) (c : Change) : (journal s r b n c).mgt = s.mgt := rfl
@[simp] theorem journal_hart0 (s : State) (r : JRec) (b : Bool) (n : Nat) (c : Change) : (journal s r b n c).hart0 = s.hart0 := rfl
@[simp] theorem journal_hart1 (s : State) (r : JRec) (b : Bool) (n : Nat) (c : Change) : (journal s r b n c).hart1 = s.hart1 := rfl
@[simp] theorem journal_hart2 (s : State) (r : JRec) (b : Bool) (n : Nat) (c : Change) : (journal s r b n c).hart2 = s.hart2 := rfl
@[simp] theorem journal_hart3 (s : State) (r : JRec) (b : Bool) (n : Nat) (c : Change) : (journal s r b n c).hart3 = s.hart3 := rfl
@[simp] theorem journal_pins (s : State) (r : JRec) (b : Bool) (n : Nat) (c : Change) : (journal s r b n c).pins = s.pins := rfl
@[simp] theorem journal_ev (s : State) (r : JRec) (b : Bool) (n : Nat) (c : Change) : (journal s r b n c).ev = s.ev := rfl
@[simp] theorem journal_lc (s : State) (r : JRec) (b : Bool) (n : Nat) (c : Change) : (journal s r b n c).lc = s.lc := rfl
@[simp] theorem journal_cap (s : State) (r : JRec) (b : Bool) (n : Nat) (c : Change) : (journal s r b n c).cap = s.cap := rfl
@[simp] theorem journal_flash (s : State) (r : JRec) (b : Bool) (n : Nat) (c : Change) : (journal s r b n c).flash = s.flash := rfl
@[simp] theorem journal_outs (s : State) (r : JRec) (b : Bool) (n : Nat) (c : Change) : (journal s r b n c).outs = s.outs := rfl
@[simp] theorem journal_freeCtr (s : State) (r : JRec) (b : Bool) (n : Nat) (c : Change) : (journal s r b n c).freeCtr = s.freeCtr := rfl
@[simp] theorem journal_pending (s : State) (r : JRec) (b : Bool) (n : Nat) (c : Change) : (journal s r b n c).pending = s.pending := rfl

@[simp] theorem setRing_mode (s : State) (g : Nat) (r : Ring) : (setRing s g r).mode = s.mode := rfl
@[simp] theorem setRing_last (s : State) (g : Nat) (r : Ring) : (setRing s g r).last = s.last := rfl
@[simp] theorem setRing_runSince (s : State) (g : Nat) (r : Ring) : (setRing s g r).runSince = s.runSince := rfl
@[simp] theorem setRing_clk (s : State) (g : Nat) (r : Ring) : (setRing s g r).clk = s.clk := rfl
@[simp] theorem setRing_pwr (s : State) (g : Nat) (r : Ring) : (setRing s g r).pwr = s.pwr := rfl
@[simp] theorem setRing_regs (s : State) (g : Nat) (r : Ring) : (setRing s g r).regs = s.regs := rfl
@[simp] theorem setRing_vregs (s : State) (g : Nat) (r : Ring) : (setRing s g r).vregs = s.vregs := rfl
@[simp] theorem setRing_pregs (s : State) (g : Nat) (r : Ring) : (setRing s g r).pregs = s.pregs := rfl
@[simp] theorem setRing_hold (s : State) (g : Nat) (r : Ring) : (setRing s g r).hold = s.hold := rfl
@[simp] theorem setRing_framed (s : State) (g : Nat) (r : Ring) : (setRing s g r).framed = s.framed := rfl
@[simp] theorem setRing_mbx (s : State) (g : Nat) (r : Ring) : (setRing s g r).mbx = s.mbx := rfl
@[simp] theorem setRing_side (s : State) (g : Nat) (r : Ring) : (setRing s g r).side = s.side := rfl
@[simp] theorem setRing_tap (s : State) (g : Nat) (r : Ring) : (setRing s g r).tap = s.tap := rfl
@[simp] theorem setRing_jrn (s : State) (g : Nat) (r : Ring) : (setRing s g r).jrn = s.jrn := rfl
@[simp] theorem setRing_fab (s : State) (g : Nat) (r : Ring) : (setRing s g r).fab = s.fab := rfl
@[simp] theorem setRing_bank (s : State) (g : Nat) (r : Ring) : (setRing s g r).bank = s.bank := rfl
@[simp] theorem setRing_ldr (s : State) (g : Nat) (r : Ring) : (setRing s g r).ldr = s.ldr := rfl
@[simp] theorem setRing_swp (s : State) (g : Nat) (r : Ring) : (setRing s g r).swp = s.swp := rfl
@[simp] theorem setRing_alm (s : State) (g : Nat) (r : Ring) : (setRing s g r).alm = s.alm := rfl
@[simp] theorem setRing_qe (s : State) (g : Nat) (r : Ring) : (setRing s g r).qe = s.qe := rfl
@[simp] theorem setRing_seg (s : State) (g : Nat) (r : Ring) : (setRing s g r).seg = s.seg := rfl
@[simp] theorem setRing_roster (s : State) (g : Nat) (r : Ring) : (setRing s g r).roster = s.roster := rfl
@[simp] theorem setRing_link (s : State) (g : Nat) (r : Ring) : (setRing s g r).link = s.link := rfl
@[simp] theorem setRing_timeSrc (s : State) (g : Nat) (r : Ring) : (setRing s g r).timeSrc = s.timeSrc := rfl
@[simp] theorem setRing_dram (s : State) (g : Nat) (r : Ring) : (setRing s g r).dram = s.dram := rfl
@[simp] theorem setRing_mgt (s : State) (g : Nat) (r : Ring) : (setRing s g r).mgt = s.mgt := rfl
@[simp] theorem setRing_hart0 (s : State) (g : Nat) (r : Ring) : (setRing s g r).hart0 = s.hart0 := rfl
@[simp] theorem setRing_hart1 (s : State) (g : Nat) (r : Ring) : (setRing s g r).hart1 = s.hart1 := rfl
@[simp] theorem setRing_hart2 (s : State) (g : Nat) (r : Ring) : (setRing s g r).hart2 = s.hart2 := rfl
@[simp] theorem setRing_hart3 (s : State) (g : Nat) (r : Ring) : (setRing s g r).hart3 = s.hart3 := rfl
@[simp] theorem setRing_pins (s : State) (g : Nat) (r : Ring) : (setRing s g r).pins = s.pins := rfl
@[simp] theorem setRing_ev (s : State) (g : Nat) (r : Ring) : (setRing s g r).ev = s.ev := rfl
@[simp] theorem setRing_lc (s : State) (g : Nat) (r : Ring) : (setRing s g r).lc = s.lc := rfl
@[simp] theorem setRing_cap (s : State) (g : Nat) (r : Ring) : (setRing s g r).cap = s.cap := rfl
@[simp] theorem setRing_flash (s : State) (g : Nat) (r : Ring) : (setRing s g r).flash = s.flash := rfl
@[simp] theorem setRing_outs (s : State) (g : Nat) (r : Ring) : (setRing s g r).outs = s.outs := rfl
@[simp] theorem setRing_freeCtr (s : State) (g : Nat) (r : Ring) : (setRing s g r).freeCtr = s.freeCtr := rfl
@[simp] theorem setRing_pending (s : State) (g : Nat) (r : Ring) : (setRing s g r).pending = s.pending := rfl

@[simp] theorem setPin_mode (s : State) (p : Nat) (x : Pin) : (setPin s p x).mode = s.mode := rfl
@[simp] theorem setPin_last (s : State) (p : Nat) (x : Pin) : (setPin s p x).last = s.last := rfl
@[simp] theorem setPin_runSince (s : State) (p : Nat) (x : Pin) : (setPin s p x).runSince = s.runSince := rfl
@[simp] theorem setPin_clk (s : State) (p : Nat) (x : Pin) : (setPin s p x).clk = s.clk := rfl
@[simp] theorem setPin_pwr (s : State) (p : Nat) (x : Pin) : (setPin s p x).pwr = s.pwr := rfl
@[simp] theorem setPin_regs (s : State) (p : Nat) (x : Pin) : (setPin s p x).regs = s.regs := rfl
@[simp] theorem setPin_vregs (s : State) (p : Nat) (x : Pin) : (setPin s p x).vregs = s.vregs := rfl
@[simp] theorem setPin_pregs (s : State) (p : Nat) (x : Pin) : (setPin s p x).pregs = s.pregs := rfl
@[simp] theorem setPin_hold (s : State) (p : Nat) (x : Pin) : (setPin s p x).hold = s.hold := rfl
@[simp] theorem setPin_framed (s : State) (p : Nat) (x : Pin) : (setPin s p x).framed = s.framed := rfl
@[simp] theorem setPin_mbx (s : State) (p : Nat) (x : Pin) : (setPin s p x).mbx = s.mbx := rfl
@[simp] theorem setPin_side (s : State) (p : Nat) (x : Pin) : (setPin s p x).side = s.side := rfl
@[simp] theorem setPin_tap (s : State) (p : Nat) (x : Pin) : (setPin s p x).tap = s.tap := rfl
@[simp] theorem setPin_jrn (s : State) (p : Nat) (x : Pin) : (setPin s p x).jrn = s.jrn := rfl
@[simp] theorem setPin_fab (s : State) (p : Nat) (x : Pin) : (setPin s p x).fab = s.fab := rfl
@[simp] theorem setPin_bank (s : State) (p : Nat) (x : Pin) : (setPin s p x).bank = s.bank := rfl
@[simp] theorem setPin_ldr (s : State) (p : Nat) (x : Pin) : (setPin s p x).ldr = s.ldr := rfl
@[simp] theorem setPin_swp (s : State) (p : Nat) (x : Pin) : (setPin s p x).swp = s.swp := rfl
@[simp] theorem setPin_alm (s : State) (p : Nat) (x : Pin) : (setPin s p x).alm = s.alm := rfl
@[simp] theorem setPin_qe (s : State) (p : Nat) (x : Pin) : (setPin s p x).qe = s.qe := rfl
@[simp] theorem setPin_host (s : State) (p : Nat) (x : Pin) : (setPin s p x).host = s.host := rfl
@[simp] theorem setPin_seg (s : State) (p : Nat) (x : Pin) : (setPin s p x).seg = s.seg := rfl
@[simp] theorem setPin_roster (s : State) (p : Nat) (x : Pin) : (setPin s p x).roster = s.roster := rfl
@[simp] theorem setPin_link (s : State) (p : Nat) (x : Pin) : (setPin s p x).link = s.link := rfl
@[simp] theorem setPin_timeSrc (s : State) (p : Nat) (x : Pin) : (setPin s p x).timeSrc = s.timeSrc := rfl
@[simp] theorem setPin_dram (s : State) (p : Nat) (x : Pin) : (setPin s p x).dram = s.dram := rfl
@[simp] theorem setPin_mgt (s : State) (p : Nat) (x : Pin) : (setPin s p x).mgt = s.mgt := rfl
@[simp] theorem setPin_hart0 (s : State) (p : Nat) (x : Pin) : (setPin s p x).hart0 = s.hart0 := rfl
@[simp] theorem setPin_hart1 (s : State) (p : Nat) (x : Pin) : (setPin s p x).hart1 = s.hart1 := rfl
@[simp] theorem setPin_hart2 (s : State) (p : Nat) (x : Pin) : (setPin s p x).hart2 = s.hart2 := rfl
@[simp] theorem setPin_hart3 (s : State) (p : Nat) (x : Pin) : (setPin s p x).hart3 = s.hart3 := rfl
@[simp] theorem setPin_ev (s : State) (p : Nat) (x : Pin) : (setPin s p x).ev = s.ev := rfl
@[simp] theorem setPin_lc (s : State) (p : Nat) (x : Pin) : (setPin s p x).lc = s.lc := rfl
@[simp] theorem setPin_cap (s : State) (p : Nat) (x : Pin) : (setPin s p x).cap = s.cap := rfl
@[simp] theorem setPin_flash (s : State) (p : Nat) (x : Pin) : (setPin s p x).flash = s.flash := rfl
@[simp] theorem setPin_outs (s : State) (p : Nat) (x : Pin) : (setPin s p x).outs = s.outs := rfl
@[simp] theorem setPin_freeCtr (s : State) (p : Nat) (x : Pin) : (setPin s p x).freeCtr = s.freeCtr := rfl
@[simp] theorem setPin_pending (s : State) (p : Nat) (x : Pin) : (setPin s p x).pending = s.pending := rfl

@[simp] theorem setSerial_mode (s : State) (u : Nat) (x : Serial) : (setSerial s u x).mode = s.mode := rfl
@[simp] theorem setSerial_last (s : State) (u : Nat) (x : Serial) : (setSerial s u x).last = s.last := rfl
@[simp] theorem setSerial_runSince (s : State) (u : Nat) (x : Serial) : (setSerial s u x).runSince = s.runSince := rfl
@[simp] theorem setSerial_clk (s : State) (u : Nat) (x : Serial) : (setSerial s u x).clk = s.clk := rfl
@[simp] theorem setSerial_pwr (s : State) (u : Nat) (x : Serial) : (setSerial s u x).pwr = s.pwr := rfl
@[simp] theorem setSerial_regs (s : State) (u : Nat) (x : Serial) : (setSerial s u x).regs = s.regs := rfl
@[simp] theorem setSerial_vregs (s : State) (u : Nat) (x : Serial) : (setSerial s u x).vregs = s.vregs := rfl
@[simp] theorem setSerial_pregs (s : State) (u : Nat) (x : Serial) : (setSerial s u x).pregs = s.pregs := rfl
@[simp] theorem setSerial_hold (s : State) (u : Nat) (x : Serial) : (setSerial s u x).hold = s.hold := rfl
@[simp] theorem setSerial_framed (s : State) (u : Nat) (x : Serial) : (setSerial s u x).framed = s.framed := rfl
@[simp] theorem setSerial_mbx (s : State) (u : Nat) (x : Serial) : (setSerial s u x).mbx = s.mbx := rfl
@[simp] theorem setSerial_side (s : State) (u : Nat) (x : Serial) : (setSerial s u x).side = s.side := rfl
@[simp] theorem setSerial_tap (s : State) (u : Nat) (x : Serial) : (setSerial s u x).tap = s.tap := rfl
@[simp] theorem setSerial_jrn (s : State) (u : Nat) (x : Serial) : (setSerial s u x).jrn = s.jrn := rfl
@[simp] theorem setSerial_fab (s : State) (u : Nat) (x : Serial) : (setSerial s u x).fab = s.fab := rfl
@[simp] theorem setSerial_bank (s : State) (u : Nat) (x : Serial) : (setSerial s u x).bank = s.bank := rfl
@[simp] theorem setSerial_ldr (s : State) (u : Nat) (x : Serial) : (setSerial s u x).ldr = s.ldr := rfl
@[simp] theorem setSerial_swp (s : State) (u : Nat) (x : Serial) : (setSerial s u x).swp = s.swp := rfl
@[simp] theorem setSerial_alm (s : State) (u : Nat) (x : Serial) : (setSerial s u x).alm = s.alm := rfl
@[simp] theorem setSerial_qe (s : State) (u : Nat) (x : Serial) : (setSerial s u x).qe = s.qe := rfl
@[simp] theorem setSerial_host (s : State) (u : Nat) (x : Serial) : (setSerial s u x).host = s.host := rfl
@[simp] theorem setSerial_seg (s : State) (u : Nat) (x : Serial) : (setSerial s u x).seg = s.seg := rfl
@[simp] theorem setSerial_roster (s : State) (u : Nat) (x : Serial) : (setSerial s u x).roster = s.roster := rfl
@[simp] theorem setSerial_link (s : State) (u : Nat) (x : Serial) : (setSerial s u x).link = s.link := rfl
@[simp] theorem setSerial_timeSrc (s : State) (u : Nat) (x : Serial) : (setSerial s u x).timeSrc = s.timeSrc := rfl
@[simp] theorem setSerial_dram (s : State) (u : Nat) (x : Serial) : (setSerial s u x).dram = s.dram := rfl
@[simp] theorem setSerial_mgt (s : State) (u : Nat) (x : Serial) : (setSerial s u x).mgt = s.mgt := rfl
@[simp] theorem setSerial_hart0 (s : State) (u : Nat) (x : Serial) : (setSerial s u x).hart0 = s.hart0 := rfl
@[simp] theorem setSerial_hart1 (s : State) (u : Nat) (x : Serial) : (setSerial s u x).hart1 = s.hart1 := rfl
@[simp] theorem setSerial_hart2 (s : State) (u : Nat) (x : Serial) : (setSerial s u x).hart2 = s.hart2 := rfl
@[simp] theorem setSerial_hart3 (s : State) (u : Nat) (x : Serial) : (setSerial s u x).hart3 = s.hart3 := rfl
@[simp] theorem setSerial_ev (s : State) (u : Nat) (x : Serial) : (setSerial s u x).ev = s.ev := rfl
@[simp] theorem setSerial_lc (s : State) (u : Nat) (x : Serial) : (setSerial s u x).lc = s.lc := rfl
@[simp] theorem setSerial_cap (s : State) (u : Nat) (x : Serial) : (setSerial s u x).cap = s.cap := rfl
@[simp] theorem setSerial_flash (s : State) (u : Nat) (x : Serial) : (setSerial s u x).flash = s.flash := rfl
@[simp] theorem setSerial_outs (s : State) (u : Nat) (x : Serial) : (setSerial s u x).outs = s.outs := rfl
@[simp] theorem setSerial_freeCtr (s : State) (u : Nat) (x : Serial) : (setSerial s u x).freeCtr = s.freeCtr := rfl
@[simp] theorem setSerial_pending (s : State) (u : Nat) (x : Serial) : (setSerial s u x).pending = s.pending := rfl

@[simp] theorem setSeg_mode (s : State) (k : Nat) (f : Seg → Seg) : (setSeg s k f).mode = s.mode := rfl
@[simp] theorem setSeg_last (s : State) (k : Nat) (f : Seg → Seg) : (setSeg s k f).last = s.last := rfl
@[simp] theorem setSeg_runSince (s : State) (k : Nat) (f : Seg → Seg) : (setSeg s k f).runSince = s.runSince := rfl
@[simp] theorem setSeg_clk (s : State) (k : Nat) (f : Seg → Seg) : (setSeg s k f).clk = s.clk := rfl
@[simp] theorem setSeg_pwr (s : State) (k : Nat) (f : Seg → Seg) : (setSeg s k f).pwr = s.pwr := rfl
@[simp] theorem setSeg_regs (s : State) (k : Nat) (f : Seg → Seg) : (setSeg s k f).regs = s.regs := rfl
@[simp] theorem setSeg_vregs (s : State) (k : Nat) (f : Seg → Seg) : (setSeg s k f).vregs = s.vregs := rfl
@[simp] theorem setSeg_pregs (s : State) (k : Nat) (f : Seg → Seg) : (setSeg s k f).pregs = s.pregs := rfl
@[simp] theorem setSeg_hold (s : State) (k : Nat) (f : Seg → Seg) : (setSeg s k f).hold = s.hold := rfl
@[simp] theorem setSeg_framed (s : State) (k : Nat) (f : Seg → Seg) : (setSeg s k f).framed = s.framed := rfl
@[simp] theorem setSeg_mbx (s : State) (k : Nat) (f : Seg → Seg) : (setSeg s k f).mbx = s.mbx := rfl
@[simp] theorem setSeg_side (s : State) (k : Nat) (f : Seg → Seg) : (setSeg s k f).side = s.side := rfl
@[simp] theorem setSeg_tap (s : State) (k : Nat) (f : Seg → Seg) : (setSeg s k f).tap = s.tap := rfl
@[simp] theorem setSeg_jrn (s : State) (k : Nat) (f : Seg → Seg) : (setSeg s k f).jrn = s.jrn := rfl
@[simp] theorem setSeg_fab (s : State) (k : Nat) (f : Seg → Seg) : (setSeg s k f).fab = s.fab := rfl
@[simp] theorem setSeg_bank (s : State) (k : Nat) (f : Seg → Seg) : (setSeg s k f).bank = s.bank := rfl
@[simp] theorem setSeg_ldr (s : State) (k : Nat) (f : Seg → Seg) : (setSeg s k f).ldr = s.ldr := rfl
@[simp] theorem setSeg_swp (s : State) (k : Nat) (f : Seg → Seg) : (setSeg s k f).swp = s.swp := rfl
@[simp] theorem setSeg_alm (s : State) (k : Nat) (f : Seg → Seg) : (setSeg s k f).alm = s.alm := rfl
@[simp] theorem setSeg_qe (s : State) (k : Nat) (f : Seg → Seg) : (setSeg s k f).qe = s.qe := rfl
@[simp] theorem setSeg_host (s : State) (k : Nat) (f : Seg → Seg) : (setSeg s k f).host = s.host := rfl
@[simp] theorem setSeg_roster (s : State) (k : Nat) (f : Seg → Seg) : (setSeg s k f).roster = s.roster := rfl
@[simp] theorem setSeg_link (s : State) (k : Nat) (f : Seg → Seg) : (setSeg s k f).link = s.link := rfl
@[simp] theorem setSeg_timeSrc (s : State) (k : Nat) (f : Seg → Seg) : (setSeg s k f).timeSrc = s.timeSrc := rfl
@[simp] theorem setSeg_dram (s : State) (k : Nat) (f : Seg → Seg) : (setSeg s k f).dram = s.dram := rfl
@[simp] theorem setSeg_mgt (s : State) (k : Nat) (f : Seg → Seg) : (setSeg s k f).mgt = s.mgt := rfl
@[simp] theorem setSeg_hart0 (s : State) (k : Nat) (f : Seg → Seg) : (setSeg s k f).hart0 = s.hart0 := rfl
@[simp] theorem setSeg_hart1 (s : State) (k : Nat) (f : Seg → Seg) : (setSeg s k f).hart1 = s.hart1 := rfl
@[simp] theorem setSeg_hart2 (s : State) (k : Nat) (f : Seg → Seg) : (setSeg s k f).hart2 = s.hart2 := rfl
@[simp] theorem setSeg_hart3 (s : State) (k : Nat) (f : Seg → Seg) : (setSeg s k f).hart3 = s.hart3 := rfl
@[simp] theorem setSeg_pins (s : State) (k : Nat) (f : Seg → Seg) : (setSeg s k f).pins = s.pins := rfl
@[simp] theorem setSeg_ev (s : State) (k : Nat) (f : Seg → Seg) : (setSeg s k f).ev = s.ev := rfl
@[simp] theorem setSeg_lc (s : State) (k : Nat) (f : Seg → Seg) : (setSeg s k f).lc = s.lc := rfl
@[simp] theorem setSeg_cap (s : State) (k : Nat) (f : Seg → Seg) : (setSeg s k f).cap = s.cap := rfl
@[simp] theorem setSeg_flash (s : State) (k : Nat) (f : Seg → Seg) : (setSeg s k f).flash = s.flash := rfl
@[simp] theorem setSeg_outs (s : State) (k : Nat) (f : Seg → Seg) : (setSeg s k f).outs = s.outs := rfl
@[simp] theorem setSeg_freeCtr (s : State) (k : Nat) (f : Seg → Seg) : (setSeg s k f).freeCtr = s.freeCtr := rfl
@[simp] theorem setSeg_pending (s : State) (k : Nat) (f : Seg → Seg) : (setSeg s k f).pending = s.pending := rfl

@[simp] theorem setLink_mode (s : State) (k : Nat) (f : Link → Link) : (setLink s k f).mode = s.mode := rfl
@[simp] theorem setLink_last (s : State) (k : Nat) (f : Link → Link) : (setLink s k f).last = s.last := rfl
@[simp] theorem setLink_runSince (s : State) (k : Nat) (f : Link → Link) : (setLink s k f).runSince = s.runSince := rfl
@[simp] theorem setLink_clk (s : State) (k : Nat) (f : Link → Link) : (setLink s k f).clk = s.clk := rfl
@[simp] theorem setLink_pwr (s : State) (k : Nat) (f : Link → Link) : (setLink s k f).pwr = s.pwr := rfl
@[simp] theorem setLink_regs (s : State) (k : Nat) (f : Link → Link) : (setLink s k f).regs = s.regs := rfl
@[simp] theorem setLink_vregs (s : State) (k : Nat) (f : Link → Link) : (setLink s k f).vregs = s.vregs := rfl
@[simp] theorem setLink_pregs (s : State) (k : Nat) (f : Link → Link) : (setLink s k f).pregs = s.pregs := rfl
@[simp] theorem setLink_hold (s : State) (k : Nat) (f : Link → Link) : (setLink s k f).hold = s.hold := rfl
@[simp] theorem setLink_framed (s : State) (k : Nat) (f : Link → Link) : (setLink s k f).framed = s.framed := rfl
@[simp] theorem setLink_mbx (s : State) (k : Nat) (f : Link → Link) : (setLink s k f).mbx = s.mbx := rfl
@[simp] theorem setLink_side (s : State) (k : Nat) (f : Link → Link) : (setLink s k f).side = s.side := rfl
@[simp] theorem setLink_tap (s : State) (k : Nat) (f : Link → Link) : (setLink s k f).tap = s.tap := rfl
@[simp] theorem setLink_jrn (s : State) (k : Nat) (f : Link → Link) : (setLink s k f).jrn = s.jrn := rfl
@[simp] theorem setLink_fab (s : State) (k : Nat) (f : Link → Link) : (setLink s k f).fab = s.fab := rfl
@[simp] theorem setLink_bank (s : State) (k : Nat) (f : Link → Link) : (setLink s k f).bank = s.bank := rfl
@[simp] theorem setLink_ldr (s : State) (k : Nat) (f : Link → Link) : (setLink s k f).ldr = s.ldr := rfl
@[simp] theorem setLink_swp (s : State) (k : Nat) (f : Link → Link) : (setLink s k f).swp = s.swp := rfl
@[simp] theorem setLink_alm (s : State) (k : Nat) (f : Link → Link) : (setLink s k f).alm = s.alm := rfl
@[simp] theorem setLink_qe (s : State) (k : Nat) (f : Link → Link) : (setLink s k f).qe = s.qe := rfl
@[simp] theorem setLink_host (s : State) (k : Nat) (f : Link → Link) : (setLink s k f).host = s.host := rfl
@[simp] theorem setLink_seg (s : State) (k : Nat) (f : Link → Link) : (setLink s k f).seg = s.seg := rfl
@[simp] theorem setLink_roster (s : State) (k : Nat) (f : Link → Link) : (setLink s k f).roster = s.roster := rfl
@[simp] theorem setLink_timeSrc (s : State) (k : Nat) (f : Link → Link) : (setLink s k f).timeSrc = s.timeSrc := rfl
@[simp] theorem setLink_dram (s : State) (k : Nat) (f : Link → Link) : (setLink s k f).dram = s.dram := rfl
@[simp] theorem setLink_mgt (s : State) (k : Nat) (f : Link → Link) : (setLink s k f).mgt = s.mgt := rfl
@[simp] theorem setLink_hart0 (s : State) (k : Nat) (f : Link → Link) : (setLink s k f).hart0 = s.hart0 := rfl
@[simp] theorem setLink_hart1 (s : State) (k : Nat) (f : Link → Link) : (setLink s k f).hart1 = s.hart1 := rfl
@[simp] theorem setLink_hart2 (s : State) (k : Nat) (f : Link → Link) : (setLink s k f).hart2 = s.hart2 := rfl
@[simp] theorem setLink_hart3 (s : State) (k : Nat) (f : Link → Link) : (setLink s k f).hart3 = s.hart3 := rfl
@[simp] theorem setLink_pins (s : State) (k : Nat) (f : Link → Link) : (setLink s k f).pins = s.pins := rfl
@[simp] theorem setLink_ev (s : State) (k : Nat) (f : Link → Link) : (setLink s k f).ev = s.ev := rfl
@[simp] theorem setLink_lc (s : State) (k : Nat) (f : Link → Link) : (setLink s k f).lc = s.lc := rfl
@[simp] theorem setLink_cap (s : State) (k : Nat) (f : Link → Link) : (setLink s k f).cap = s.cap := rfl
@[simp] theorem setLink_flash (s : State) (k : Nat) (f : Link → Link) : (setLink s k f).flash = s.flash := rfl
@[simp] theorem setLink_outs (s : State) (k : Nat) (f : Link → Link) : (setLink s k f).outs = s.outs := rfl
@[simp] theorem setLink_freeCtr (s : State) (k : Nat) (f : Link → Link) : (setLink s k f).freeCtr = s.freeCtr := rfl
@[simp] theorem setLink_pending (s : State) (k : Nat) (f : Link → Link) : (setLink s k f).pending = s.pending := rfl

@[simp] theorem setRunning_mode (s : State) (l : Option Load) : (setRunning s l).mode = s.mode := rfl
@[simp] theorem setRunning_last (s : State) (l : Option Load) : (setRunning s l).last = s.last := rfl
@[simp] theorem setRunning_runSince (s : State) (l : Option Load) : (setRunning s l).runSince = s.runSince := rfl
@[simp] theorem setRunning_clk (s : State) (l : Option Load) : (setRunning s l).clk = s.clk := rfl
@[simp] theorem setRunning_pwr (s : State) (l : Option Load) : (setRunning s l).pwr = s.pwr := rfl
@[simp] theorem setRunning_regs (s : State) (l : Option Load) : (setRunning s l).regs = s.regs := rfl
@[simp] theorem setRunning_vregs (s : State) (l : Option Load) : (setRunning s l).vregs = s.vregs := rfl
@[simp] theorem setRunning_pregs (s : State) (l : Option Load) : (setRunning s l).pregs = s.pregs := rfl
@[simp] theorem setRunning_hold (s : State) (l : Option Load) : (setRunning s l).hold = s.hold := rfl
@[simp] theorem setRunning_framed (s : State) (l : Option Load) : (setRunning s l).framed = s.framed := rfl
@[simp] theorem setRunning_mbx (s : State) (l : Option Load) : (setRunning s l).mbx = s.mbx := rfl
@[simp] theorem setRunning_side (s : State) (l : Option Load) : (setRunning s l).side = s.side := rfl
@[simp] theorem setRunning_tap (s : State) (l : Option Load) : (setRunning s l).tap = s.tap := rfl
@[simp] theorem setRunning_jrn (s : State) (l : Option Load) : (setRunning s l).jrn = s.jrn := rfl
@[simp] theorem setRunning_fab (s : State) (l : Option Load) : (setRunning s l).fab = s.fab := rfl
@[simp] theorem setRunning_bank (s : State) (l : Option Load) : (setRunning s l).bank = s.bank := rfl
@[simp] theorem setRunning_swp (s : State) (l : Option Load) : (setRunning s l).swp = s.swp := rfl
@[simp] theorem setRunning_alm (s : State) (l : Option Load) : (setRunning s l).alm = s.alm := rfl
@[simp] theorem setRunning_qe (s : State) (l : Option Load) : (setRunning s l).qe = s.qe := rfl
@[simp] theorem setRunning_host (s : State) (l : Option Load) : (setRunning s l).host = s.host := rfl
@[simp] theorem setRunning_seg (s : State) (l : Option Load) : (setRunning s l).seg = s.seg := rfl
@[simp] theorem setRunning_roster (s : State) (l : Option Load) : (setRunning s l).roster = s.roster := rfl
@[simp] theorem setRunning_link (s : State) (l : Option Load) : (setRunning s l).link = s.link := rfl
@[simp] theorem setRunning_timeSrc (s : State) (l : Option Load) : (setRunning s l).timeSrc = s.timeSrc := rfl
@[simp] theorem setRunning_dram (s : State) (l : Option Load) : (setRunning s l).dram = s.dram := rfl
@[simp] theorem setRunning_mgt (s : State) (l : Option Load) : (setRunning s l).mgt = s.mgt := rfl
@[simp] theorem setRunning_hart0 (s : State) (l : Option Load) : (setRunning s l).hart0 = s.hart0 := rfl
@[simp] theorem setRunning_hart1 (s : State) (l : Option Load) : (setRunning s l).hart1 = s.hart1 := rfl
@[simp] theorem setRunning_hart2 (s : State) (l : Option Load) : (setRunning s l).hart2 = s.hart2 := rfl
@[simp] theorem setRunning_hart3 (s : State) (l : Option Load) : (setRunning s l).hart3 = s.hart3 := rfl
@[simp] theorem setRunning_pins (s : State) (l : Option Load) : (setRunning s l).pins = s.pins := rfl
@[simp] theorem setRunning_ev (s : State) (l : Option Load) : (setRunning s l).ev = s.ev := rfl
@[simp] theorem setRunning_lc (s : State) (l : Option Load) : (setRunning s l).lc = s.lc := rfl
@[simp] theorem setRunning_cap (s : State) (l : Option Load) : (setRunning s l).cap = s.cap := rfl
@[simp] theorem setRunning_flash (s : State) (l : Option Load) : (setRunning s l).flash = s.flash := rfl
@[simp] theorem setRunning_outs (s : State) (l : Option Load) : (setRunning s l).outs = s.outs := rfl
@[simp] theorem setRunning_freeCtr (s : State) (l : Option Load) : (setRunning s l).freeCtr = s.freeCtr := rfl
@[simp] theorem setRunning_pending (s : State) (l : Option Load) : (setRunning s l).pending = s.pending := rfl

@[simp] theorem setGroup_mode (s : State) (p cg : Nat) (f : Group → Group) : (setGroup s p cg f).mode = s.mode := rfl
@[simp] theorem setGroup_last (s : State) (p cg : Nat) (f : Group → Group) : (setGroup s p cg f).last = s.last := rfl
@[simp] theorem setGroup_runSince (s : State) (p cg : Nat) (f : Group → Group) : (setGroup s p cg f).runSince = s.runSince := rfl
@[simp] theorem setGroup_clk (s : State) (p cg : Nat) (f : Group → Group) : (setGroup s p cg f).clk = s.clk := rfl
@[simp] theorem setGroup_pwr (s : State) (p cg : Nat) (f : Group → Group) : (setGroup s p cg f).pwr = s.pwr := rfl
@[simp] theorem setGroup_regs (s : State) (p cg : Nat) (f : Group → Group) : (setGroup s p cg f).regs = s.regs := rfl
@[simp] theorem setGroup_vregs (s : State) (p cg : Nat) (f : Group → Group) : (setGroup s p cg f).vregs = s.vregs := rfl
@[simp] theorem setGroup_pregs (s : State) (p cg : Nat) (f : Group → Group) : (setGroup s p cg f).pregs = s.pregs := rfl
@[simp] theorem setGroup_hold (s : State) (p cg : Nat) (f : Group → Group) : (setGroup s p cg f).hold = s.hold := rfl
@[simp] theorem setGroup_framed (s : State) (p cg : Nat) (f : Group → Group) : (setGroup s p cg f).framed = s.framed := rfl
@[simp] theorem setGroup_mbx (s : State) (p cg : Nat) (f : Group → Group) : (setGroup s p cg f).mbx = s.mbx := rfl
@[simp] theorem setGroup_side (s : State) (p cg : Nat) (f : Group → Group) : (setGroup s p cg f).side = s.side := rfl
@[simp] theorem setGroup_tap (s : State) (p cg : Nat) (f : Group → Group) : (setGroup s p cg f).tap = s.tap := rfl
@[simp] theorem setGroup_jrn (s : State) (p cg : Nat) (f : Group → Group) : (setGroup s p cg f).jrn = s.jrn := rfl
@[simp] theorem setGroup_fab (s : State) (p cg : Nat) (f : Group → Group) : (setGroup s p cg f).fab = s.fab := rfl
@[simp] theorem setGroup_bank (s : State) (p cg : Nat) (f : Group → Group) : (setGroup s p cg f).bank = s.bank := rfl
@[simp] theorem setGroup_ldr (s : State) (p cg : Nat) (f : Group → Group) : (setGroup s p cg f).ldr = s.ldr := rfl
@[simp] theorem setGroup_alm (s : State) (p cg : Nat) (f : Group → Group) : (setGroup s p cg f).alm = s.alm := rfl
@[simp] theorem setGroup_qe (s : State) (p cg : Nat) (f : Group → Group) : (setGroup s p cg f).qe = s.qe := rfl
@[simp] theorem setGroup_host (s : State) (p cg : Nat) (f : Group → Group) : (setGroup s p cg f).host = s.host := rfl
@[simp] theorem setGroup_seg (s : State) (p cg : Nat) (f : Group → Group) : (setGroup s p cg f).seg = s.seg := rfl
@[simp] theorem setGroup_roster (s : State) (p cg : Nat) (f : Group → Group) : (setGroup s p cg f).roster = s.roster := rfl
@[simp] theorem setGroup_link (s : State) (p cg : Nat) (f : Group → Group) : (setGroup s p cg f).link = s.link := rfl
@[simp] theorem setGroup_timeSrc (s : State) (p cg : Nat) (f : Group → Group) : (setGroup s p cg f).timeSrc = s.timeSrc := rfl
@[simp] theorem setGroup_dram (s : State) (p cg : Nat) (f : Group → Group) : (setGroup s p cg f).dram = s.dram := rfl
@[simp] theorem setGroup_mgt (s : State) (p cg : Nat) (f : Group → Group) : (setGroup s p cg f).mgt = s.mgt := rfl
@[simp] theorem setGroup_hart0 (s : State) (p cg : Nat) (f : Group → Group) : (setGroup s p cg f).hart0 = s.hart0 := rfl
@[simp] theorem setGroup_hart1 (s : State) (p cg : Nat) (f : Group → Group) : (setGroup s p cg f).hart1 = s.hart1 := rfl
@[simp] theorem setGroup_hart2 (s : State) (p cg : Nat) (f : Group → Group) : (setGroup s p cg f).hart2 = s.hart2 := rfl
@[simp] theorem setGroup_hart3 (s : State) (p cg : Nat) (f : Group → Group) : (setGroup s p cg f).hart3 = s.hart3 := rfl
@[simp] theorem setGroup_pins (s : State) (p cg : Nat) (f : Group → Group) : (setGroup s p cg f).pins = s.pins := rfl
@[simp] theorem setGroup_ev (s : State) (p cg : Nat) (f : Group → Group) : (setGroup s p cg f).ev = s.ev := rfl
@[simp] theorem setGroup_lc (s : State) (p cg : Nat) (f : Group → Group) : (setGroup s p cg f).lc = s.lc := rfl
@[simp] theorem setGroup_cap (s : State) (p cg : Nat) (f : Group → Group) : (setGroup s p cg f).cap = s.cap := rfl
@[simp] theorem setGroup_flash (s : State) (p cg : Nat) (f : Group → Group) : (setGroup s p cg f).flash = s.flash := rfl
@[simp] theorem setGroup_outs (s : State) (p cg : Nat) (f : Group → Group) : (setGroup s p cg f).outs = s.outs := rfl
@[simp] theorem setGroup_freeCtr (s : State) (p cg : Nat) (f : Group → Group) : (setGroup s p cg f).freeCtr = s.freeCtr := rfl
@[simp] theorem setGroup_pending (s : State) (p cg : Nat) (f : Group → Group) : (setGroup s p cg f).pending = s.pending := rfl

@[simp] theorem setAlm_mode (s : State) (p : Nat) (f : AlmPart → AlmPart) : (setAlm s p f).mode = s.mode := rfl
@[simp] theorem setAlm_last (s : State) (p : Nat) (f : AlmPart → AlmPart) : (setAlm s p f).last = s.last := rfl
@[simp] theorem setAlm_runSince (s : State) (p : Nat) (f : AlmPart → AlmPart) : (setAlm s p f).runSince = s.runSince := rfl
@[simp] theorem setAlm_clk (s : State) (p : Nat) (f : AlmPart → AlmPart) : (setAlm s p f).clk = s.clk := rfl
@[simp] theorem setAlm_pwr (s : State) (p : Nat) (f : AlmPart → AlmPart) : (setAlm s p f).pwr = s.pwr := rfl
@[simp] theorem setAlm_regs (s : State) (p : Nat) (f : AlmPart → AlmPart) : (setAlm s p f).regs = s.regs := rfl
@[simp] theorem setAlm_vregs (s : State) (p : Nat) (f : AlmPart → AlmPart) : (setAlm s p f).vregs = s.vregs := rfl
@[simp] theorem setAlm_pregs (s : State) (p : Nat) (f : AlmPart → AlmPart) : (setAlm s p f).pregs = s.pregs := rfl
@[simp] theorem setAlm_hold (s : State) (p : Nat) (f : AlmPart → AlmPart) : (setAlm s p f).hold = s.hold := rfl
@[simp] theorem setAlm_framed (s : State) (p : Nat) (f : AlmPart → AlmPart) : (setAlm s p f).framed = s.framed := rfl
@[simp] theorem setAlm_mbx (s : State) (p : Nat) (f : AlmPart → AlmPart) : (setAlm s p f).mbx = s.mbx := rfl
@[simp] theorem setAlm_side (s : State) (p : Nat) (f : AlmPart → AlmPart) : (setAlm s p f).side = s.side := rfl
@[simp] theorem setAlm_tap (s : State) (p : Nat) (f : AlmPart → AlmPart) : (setAlm s p f).tap = s.tap := rfl
@[simp] theorem setAlm_jrn (s : State) (p : Nat) (f : AlmPart → AlmPart) : (setAlm s p f).jrn = s.jrn := rfl
@[simp] theorem setAlm_fab (s : State) (p : Nat) (f : AlmPart → AlmPart) : (setAlm s p f).fab = s.fab := rfl
@[simp] theorem setAlm_bank (s : State) (p : Nat) (f : AlmPart → AlmPart) : (setAlm s p f).bank = s.bank := rfl
@[simp] theorem setAlm_ldr (s : State) (p : Nat) (f : AlmPart → AlmPart) : (setAlm s p f).ldr = s.ldr := rfl
@[simp] theorem setAlm_swp (s : State) (p : Nat) (f : AlmPart → AlmPart) : (setAlm s p f).swp = s.swp := rfl
@[simp] theorem setAlm_qe (s : State) (p : Nat) (f : AlmPart → AlmPart) : (setAlm s p f).qe = s.qe := rfl
@[simp] theorem setAlm_host (s : State) (p : Nat) (f : AlmPart → AlmPart) : (setAlm s p f).host = s.host := rfl
@[simp] theorem setAlm_seg (s : State) (p : Nat) (f : AlmPart → AlmPart) : (setAlm s p f).seg = s.seg := rfl
@[simp] theorem setAlm_roster (s : State) (p : Nat) (f : AlmPart → AlmPart) : (setAlm s p f).roster = s.roster := rfl
@[simp] theorem setAlm_link (s : State) (p : Nat) (f : AlmPart → AlmPart) : (setAlm s p f).link = s.link := rfl
@[simp] theorem setAlm_timeSrc (s : State) (p : Nat) (f : AlmPart → AlmPart) : (setAlm s p f).timeSrc = s.timeSrc := rfl
@[simp] theorem setAlm_dram (s : State) (p : Nat) (f : AlmPart → AlmPart) : (setAlm s p f).dram = s.dram := rfl
@[simp] theorem setAlm_mgt (s : State) (p : Nat) (f : AlmPart → AlmPart) : (setAlm s p f).mgt = s.mgt := rfl
@[simp] theorem setAlm_hart0 (s : State) (p : Nat) (f : AlmPart → AlmPart) : (setAlm s p f).hart0 = s.hart0 := rfl
@[simp] theorem setAlm_hart1 (s : State) (p : Nat) (f : AlmPart → AlmPart) : (setAlm s p f).hart1 = s.hart1 := rfl
@[simp] theorem setAlm_hart2 (s : State) (p : Nat) (f : AlmPart → AlmPart) : (setAlm s p f).hart2 = s.hart2 := rfl
@[simp] theorem setAlm_hart3 (s : State) (p : Nat) (f : AlmPart → AlmPart) : (setAlm s p f).hart3 = s.hart3 := rfl
@[simp] theorem setAlm_pins (s : State) (p : Nat) (f : AlmPart → AlmPart) : (setAlm s p f).pins = s.pins := rfl
@[simp] theorem setAlm_ev (s : State) (p : Nat) (f : AlmPart → AlmPart) : (setAlm s p f).ev = s.ev := rfl
@[simp] theorem setAlm_lc (s : State) (p : Nat) (f : AlmPart → AlmPart) : (setAlm s p f).lc = s.lc := rfl
@[simp] theorem setAlm_cap (s : State) (p : Nat) (f : AlmPart → AlmPart) : (setAlm s p f).cap = s.cap := rfl
@[simp] theorem setAlm_flash (s : State) (p : Nat) (f : AlmPart → AlmPart) : (setAlm s p f).flash = s.flash := rfl
@[simp] theorem setAlm_outs (s : State) (p : Nat) (f : AlmPart → AlmPart) : (setAlm s p f).outs = s.outs := rfl
@[simp] theorem setAlm_freeCtr (s : State) (p : Nat) (f : AlmPart → AlmPart) : (setAlm s p f).freeCtr = s.freeCtr := rfl
@[simp] theorem setAlm_pending (s : State) (p : Nat) (f : AlmPart → AlmPart) : (setAlm s p f).pending = s.pending := rfl

@[simp] theorem setOpenReq_mode (s : State) (p : Nat) (f : MReq → MReq) : (setOpenReq s p f).mode = s.mode := rfl
@[simp] theorem setOpenReq_last (s : State) (p : Nat) (f : MReq → MReq) : (setOpenReq s p f).last = s.last := rfl
@[simp] theorem setOpenReq_runSince (s : State) (p : Nat) (f : MReq → MReq) : (setOpenReq s p f).runSince = s.runSince := rfl
@[simp] theorem setOpenReq_clk (s : State) (p : Nat) (f : MReq → MReq) : (setOpenReq s p f).clk = s.clk := rfl
@[simp] theorem setOpenReq_pwr (s : State) (p : Nat) (f : MReq → MReq) : (setOpenReq s p f).pwr = s.pwr := rfl
@[simp] theorem setOpenReq_regs (s : State) (p : Nat) (f : MReq → MReq) : (setOpenReq s p f).regs = s.regs := rfl
@[simp] theorem setOpenReq_vregs (s : State) (p : Nat) (f : MReq → MReq) : (setOpenReq s p f).vregs = s.vregs := rfl
@[simp] theorem setOpenReq_pregs (s : State) (p : Nat) (f : MReq → MReq) : (setOpenReq s p f).pregs = s.pregs := rfl
@[simp] theorem setOpenReq_hold (s : State) (p : Nat) (f : MReq → MReq) : (setOpenReq s p f).hold = s.hold := rfl
@[simp] theorem setOpenReq_framed (s : State) (p : Nat) (f : MReq → MReq) : (setOpenReq s p f).framed = s.framed := rfl
@[simp] theorem setOpenReq_mbx (s : State) (p : Nat) (f : MReq → MReq) : (setOpenReq s p f).mbx = s.mbx := rfl
@[simp] theorem setOpenReq_side (s : State) (p : Nat) (f : MReq → MReq) : (setOpenReq s p f).side = s.side := rfl
@[simp] theorem setOpenReq_tap (s : State) (p : Nat) (f : MReq → MReq) : (setOpenReq s p f).tap = s.tap := rfl
@[simp] theorem setOpenReq_jrn (s : State) (p : Nat) (f : MReq → MReq) : (setOpenReq s p f).jrn = s.jrn := rfl
@[simp] theorem setOpenReq_fab (s : State) (p : Nat) (f : MReq → MReq) : (setOpenReq s p f).fab = s.fab := rfl
@[simp] theorem setOpenReq_bank (s : State) (p : Nat) (f : MReq → MReq) : (setOpenReq s p f).bank = s.bank := rfl
@[simp] theorem setOpenReq_ldr (s : State) (p : Nat) (f : MReq → MReq) : (setOpenReq s p f).ldr = s.ldr := rfl
@[simp] theorem setOpenReq_swp (s : State) (p : Nat) (f : MReq → MReq) : (setOpenReq s p f).swp = s.swp := rfl
@[simp] theorem setOpenReq_alm (s : State) (p : Nat) (f : MReq → MReq) : (setOpenReq s p f).alm = s.alm := rfl
@[simp] theorem setOpenReq_qe (s : State) (p : Nat) (f : MReq → MReq) : (setOpenReq s p f).qe = s.qe := rfl
@[simp] theorem setOpenReq_host (s : State) (p : Nat) (f : MReq → MReq) : (setOpenReq s p f).host = s.host := rfl
@[simp] theorem setOpenReq_seg (s : State) (p : Nat) (f : MReq → MReq) : (setOpenReq s p f).seg = s.seg := rfl
@[simp] theorem setOpenReq_roster (s : State) (p : Nat) (f : MReq → MReq) : (setOpenReq s p f).roster = s.roster := rfl
@[simp] theorem setOpenReq_link (s : State) (p : Nat) (f : MReq → MReq) : (setOpenReq s p f).link = s.link := rfl
@[simp] theorem setOpenReq_timeSrc (s : State) (p : Nat) (f : MReq → MReq) : (setOpenReq s p f).timeSrc = s.timeSrc := rfl
@[simp] theorem setOpenReq_dram (s : State) (p : Nat) (f : MReq → MReq) : (setOpenReq s p f).dram = s.dram := rfl
@[simp] theorem setOpenReq_hart0 (s : State) (p : Nat) (f : MReq → MReq) : (setOpenReq s p f).hart0 = s.hart0 := rfl
@[simp] theorem setOpenReq_hart1 (s : State) (p : Nat) (f : MReq → MReq) : (setOpenReq s p f).hart1 = s.hart1 := rfl
@[simp] theorem setOpenReq_hart2 (s : State) (p : Nat) (f : MReq → MReq) : (setOpenReq s p f).hart2 = s.hart2 := rfl
@[simp] theorem setOpenReq_hart3 (s : State) (p : Nat) (f : MReq → MReq) : (setOpenReq s p f).hart3 = s.hart3 := rfl
@[simp] theorem setOpenReq_pins (s : State) (p : Nat) (f : MReq → MReq) : (setOpenReq s p f).pins = s.pins := rfl
@[simp] theorem setOpenReq_ev (s : State) (p : Nat) (f : MReq → MReq) : (setOpenReq s p f).ev = s.ev := rfl
@[simp] theorem setOpenReq_lc (s : State) (p : Nat) (f : MReq → MReq) : (setOpenReq s p f).lc = s.lc := rfl
@[simp] theorem setOpenReq_cap (s : State) (p : Nat) (f : MReq → MReq) : (setOpenReq s p f).cap = s.cap := rfl
@[simp] theorem setOpenReq_flash (s : State) (p : Nat) (f : MReq → MReq) : (setOpenReq s p f).flash = s.flash := rfl
@[simp] theorem setOpenReq_outs (s : State) (p : Nat) (f : MReq → MReq) : (setOpenReq s p f).outs = s.outs := rfl
@[simp] theorem setOpenReq_freeCtr (s : State) (p : Nat) (f : MReq → MReq) : (setOpenReq s p f).freeCtr = s.freeCtr := rfl
@[simp] theorem setOpenReq_pending (s : State) (p : Nat) (f : MReq → MReq) : (setOpenReq s p f).pending = s.pending := rfl

@[simp] theorem setScrubber_mode (s : State) (k : Nat) (f : Scrubber → Scrubber) : (setScrubber s k f).mode = s.mode := rfl
@[simp] theorem setScrubber_last (s : State) (k : Nat) (f : Scrubber → Scrubber) : (setScrubber s k f).last = s.last := rfl
@[simp] theorem setScrubber_runSince (s : State) (k : Nat) (f : Scrubber → Scrubber) : (setScrubber s k f).runSince = s.runSince := rfl
@[simp] theorem setScrubber_clk (s : State) (k : Nat) (f : Scrubber → Scrubber) : (setScrubber s k f).clk = s.clk := rfl
@[simp] theorem setScrubber_pwr (s : State) (k : Nat) (f : Scrubber → Scrubber) : (setScrubber s k f).pwr = s.pwr := rfl
@[simp] theorem setScrubber_regs (s : State) (k : Nat) (f : Scrubber → Scrubber) : (setScrubber s k f).regs = s.regs := rfl
@[simp] theorem setScrubber_vregs (s : State) (k : Nat) (f : Scrubber → Scrubber) : (setScrubber s k f).vregs = s.vregs := rfl
@[simp] theorem setScrubber_pregs (s : State) (k : Nat) (f : Scrubber → Scrubber) : (setScrubber s k f).pregs = s.pregs := rfl
@[simp] theorem setScrubber_hold (s : State) (k : Nat) (f : Scrubber → Scrubber) : (setScrubber s k f).hold = s.hold := rfl
@[simp] theorem setScrubber_framed (s : State) (k : Nat) (f : Scrubber → Scrubber) : (setScrubber s k f).framed = s.framed := rfl
@[simp] theorem setScrubber_mbx (s : State) (k : Nat) (f : Scrubber → Scrubber) : (setScrubber s k f).mbx = s.mbx := rfl
@[simp] theorem setScrubber_side (s : State) (k : Nat) (f : Scrubber → Scrubber) : (setScrubber s k f).side = s.side := rfl
@[simp] theorem setScrubber_tap (s : State) (k : Nat) (f : Scrubber → Scrubber) : (setScrubber s k f).tap = s.tap := rfl
@[simp] theorem setScrubber_jrn (s : State) (k : Nat) (f : Scrubber → Scrubber) : (setScrubber s k f).jrn = s.jrn := rfl
@[simp] theorem setScrubber_fab (s : State) (k : Nat) (f : Scrubber → Scrubber) : (setScrubber s k f).fab = s.fab := rfl
@[simp] theorem setScrubber_bank (s : State) (k : Nat) (f : Scrubber → Scrubber) : (setScrubber s k f).bank = s.bank := rfl
@[simp] theorem setScrubber_ldr (s : State) (k : Nat) (f : Scrubber → Scrubber) : (setScrubber s k f).ldr = s.ldr := rfl
@[simp] theorem setScrubber_swp (s : State) (k : Nat) (f : Scrubber → Scrubber) : (setScrubber s k f).swp = s.swp := rfl
@[simp] theorem setScrubber_alm (s : State) (k : Nat) (f : Scrubber → Scrubber) : (setScrubber s k f).alm = s.alm := rfl
@[simp] theorem setScrubber_qe (s : State) (k : Nat) (f : Scrubber → Scrubber) : (setScrubber s k f).qe = s.qe := rfl
@[simp] theorem setScrubber_host (s : State) (k : Nat) (f : Scrubber → Scrubber) : (setScrubber s k f).host = s.host := rfl
@[simp] theorem setScrubber_seg (s : State) (k : Nat) (f : Scrubber → Scrubber) : (setScrubber s k f).seg = s.seg := rfl
@[simp] theorem setScrubber_roster (s : State) (k : Nat) (f : Scrubber → Scrubber) : (setScrubber s k f).roster = s.roster := rfl
@[simp] theorem setScrubber_link (s : State) (k : Nat) (f : Scrubber → Scrubber) : (setScrubber s k f).link = s.link := rfl
@[simp] theorem setScrubber_timeSrc (s : State) (k : Nat) (f : Scrubber → Scrubber) : (setScrubber s k f).timeSrc = s.timeSrc := rfl
@[simp] theorem setScrubber_mgt (s : State) (k : Nat) (f : Scrubber → Scrubber) : (setScrubber s k f).mgt = s.mgt := rfl
@[simp] theorem setScrubber_hart0 (s : State) (k : Nat) (f : Scrubber → Scrubber) : (setScrubber s k f).hart0 = s.hart0 := rfl
@[simp] theorem setScrubber_hart1 (s : State) (k : Nat) (f : Scrubber → Scrubber) : (setScrubber s k f).hart1 = s.hart1 := rfl
@[simp] theorem setScrubber_hart2 (s : State) (k : Nat) (f : Scrubber → Scrubber) : (setScrubber s k f).hart2 = s.hart2 := rfl
@[simp] theorem setScrubber_hart3 (s : State) (k : Nat) (f : Scrubber → Scrubber) : (setScrubber s k f).hart3 = s.hart3 := rfl
@[simp] theorem setScrubber_pins (s : State) (k : Nat) (f : Scrubber → Scrubber) : (setScrubber s k f).pins = s.pins := rfl
@[simp] theorem setScrubber_ev (s : State) (k : Nat) (f : Scrubber → Scrubber) : (setScrubber s k f).ev = s.ev := rfl
@[simp] theorem setScrubber_lc (s : State) (k : Nat) (f : Scrubber → Scrubber) : (setScrubber s k f).lc = s.lc := rfl
@[simp] theorem setScrubber_cap (s : State) (k : Nat) (f : Scrubber → Scrubber) : (setScrubber s k f).cap = s.cap := rfl
@[simp] theorem setScrubber_flash (s : State) (k : Nat) (f : Scrubber → Scrubber) : (setScrubber s k f).flash = s.flash := rfl
@[simp] theorem setScrubber_outs (s : State) (k : Nat) (f : Scrubber → Scrubber) : (setScrubber s k f).outs = s.outs := rfl
@[simp] theorem setScrubber_freeCtr (s : State) (k : Nat) (f : Scrubber → Scrubber) : (setScrubber s k f).freeCtr = s.freeCtr := rfl
@[simp] theorem setScrubber_pending (s : State) (k : Nat) (f : Scrubber → Scrubber) : (setScrubber s k f).pending = s.pending := rfl

@[simp] theorem setCap_mode (s : State) (k : Nat) (c : Option Cap) : (setCap s k c).mode = s.mode := rfl
@[simp] theorem setCap_last (s : State) (k : Nat) (c : Option Cap) : (setCap s k c).last = s.last := rfl
@[simp] theorem setCap_runSince (s : State) (k : Nat) (c : Option Cap) : (setCap s k c).runSince = s.runSince := rfl
@[simp] theorem setCap_clk (s : State) (k : Nat) (c : Option Cap) : (setCap s k c).clk = s.clk := rfl
@[simp] theorem setCap_pwr (s : State) (k : Nat) (c : Option Cap) : (setCap s k c).pwr = s.pwr := rfl
@[simp] theorem setCap_regs (s : State) (k : Nat) (c : Option Cap) : (setCap s k c).regs = s.regs := rfl
@[simp] theorem setCap_vregs (s : State) (k : Nat) (c : Option Cap) : (setCap s k c).vregs = s.vregs := rfl
@[simp] theorem setCap_pregs (s : State) (k : Nat) (c : Option Cap) : (setCap s k c).pregs = s.pregs := rfl
@[simp] theorem setCap_hold (s : State) (k : Nat) (c : Option Cap) : (setCap s k c).hold = s.hold := rfl
@[simp] theorem setCap_framed (s : State) (k : Nat) (c : Option Cap) : (setCap s k c).framed = s.framed := rfl
@[simp] theorem setCap_mbx (s : State) (k : Nat) (c : Option Cap) : (setCap s k c).mbx = s.mbx := rfl
@[simp] theorem setCap_side (s : State) (k : Nat) (c : Option Cap) : (setCap s k c).side = s.side := rfl
@[simp] theorem setCap_tap (s : State) (k : Nat) (c : Option Cap) : (setCap s k c).tap = s.tap := rfl
@[simp] theorem setCap_jrn (s : State) (k : Nat) (c : Option Cap) : (setCap s k c).jrn = s.jrn := rfl
@[simp] theorem setCap_fab (s : State) (k : Nat) (c : Option Cap) : (setCap s k c).fab = s.fab := rfl
@[simp] theorem setCap_bank (s : State) (k : Nat) (c : Option Cap) : (setCap s k c).bank = s.bank := rfl
@[simp] theorem setCap_ldr (s : State) (k : Nat) (c : Option Cap) : (setCap s k c).ldr = s.ldr := rfl
@[simp] theorem setCap_swp (s : State) (k : Nat) (c : Option Cap) : (setCap s k c).swp = s.swp := rfl
@[simp] theorem setCap_alm (s : State) (k : Nat) (c : Option Cap) : (setCap s k c).alm = s.alm := rfl
@[simp] theorem setCap_qe (s : State) (k : Nat) (c : Option Cap) : (setCap s k c).qe = s.qe := rfl
@[simp] theorem setCap_host (s : State) (k : Nat) (c : Option Cap) : (setCap s k c).host = s.host := rfl
@[simp] theorem setCap_seg (s : State) (k : Nat) (c : Option Cap) : (setCap s k c).seg = s.seg := rfl
@[simp] theorem setCap_roster (s : State) (k : Nat) (c : Option Cap) : (setCap s k c).roster = s.roster := rfl
@[simp] theorem setCap_link (s : State) (k : Nat) (c : Option Cap) : (setCap s k c).link = s.link := rfl
@[simp] theorem setCap_timeSrc (s : State) (k : Nat) (c : Option Cap) : (setCap s k c).timeSrc = s.timeSrc := rfl
@[simp] theorem setCap_dram (s : State) (k : Nat) (c : Option Cap) : (setCap s k c).dram = s.dram := rfl
@[simp] theorem setCap_mgt (s : State) (k : Nat) (c : Option Cap) : (setCap s k c).mgt = s.mgt := rfl
@[simp] theorem setCap_hart0 (s : State) (k : Nat) (c : Option Cap) : (setCap s k c).hart0 = s.hart0 := rfl
@[simp] theorem setCap_hart1 (s : State) (k : Nat) (c : Option Cap) : (setCap s k c).hart1 = s.hart1 := rfl
@[simp] theorem setCap_hart2 (s : State) (k : Nat) (c : Option Cap) : (setCap s k c).hart2 = s.hart2 := rfl
@[simp] theorem setCap_hart3 (s : State) (k : Nat) (c : Option Cap) : (setCap s k c).hart3 = s.hart3 := rfl
@[simp] theorem setCap_pins (s : State) (k : Nat) (c : Option Cap) : (setCap s k c).pins = s.pins := rfl
@[simp] theorem setCap_ev (s : State) (k : Nat) (c : Option Cap) : (setCap s k c).ev = s.ev := rfl
@[simp] theorem setCap_lc (s : State) (k : Nat) (c : Option Cap) : (setCap s k c).lc = s.lc := rfl
@[simp] theorem setCap_flash (s : State) (k : Nat) (c : Option Cap) : (setCap s k c).flash = s.flash := rfl
@[simp] theorem setCap_outs (s : State) (k : Nat) (c : Option Cap) : (setCap s k c).outs = s.outs := rfl
@[simp] theorem setCap_freeCtr (s : State) (k : Nat) (c : Option Cap) : (setCap s k c).freeCtr = s.freeCtr := rfl
@[simp] theorem setCap_pending (s : State) (k : Nat) (c : Option Cap) : (setCap s k c).pending = s.pending := rfl

@[simp] theorem setQueue_mode (s : State) (q : Nat) (f : Queue → Queue) : (setQueue s q f).mode = s.mode := rfl
@[simp] theorem setQueue_last (s : State) (q : Nat) (f : Queue → Queue) : (setQueue s q f).last = s.last := rfl
@[simp] theorem setQueue_runSince (s : State) (q : Nat) (f : Queue → Queue) : (setQueue s q f).runSince = s.runSince := rfl
@[simp] theorem setQueue_clk (s : State) (q : Nat) (f : Queue → Queue) : (setQueue s q f).clk = s.clk := rfl
@[simp] theorem setQueue_pwr (s : State) (q : Nat) (f : Queue → Queue) : (setQueue s q f).pwr = s.pwr := rfl
@[simp] theorem setQueue_regs (s : State) (q : Nat) (f : Queue → Queue) : (setQueue s q f).regs = s.regs := rfl
@[simp] theorem setQueue_vregs (s : State) (q : Nat) (f : Queue → Queue) : (setQueue s q f).vregs = s.vregs := rfl
@[simp] theorem setQueue_pregs (s : State) (q : Nat) (f : Queue → Queue) : (setQueue s q f).pregs = s.pregs := rfl
@[simp] theorem setQueue_hold (s : State) (q : Nat) (f : Queue → Queue) : (setQueue s q f).hold = s.hold := rfl
@[simp] theorem setQueue_framed (s : State) (q : Nat) (f : Queue → Queue) : (setQueue s q f).framed = s.framed := rfl
@[simp] theorem setQueue_mbx (s : State) (q : Nat) (f : Queue → Queue) : (setQueue s q f).mbx = s.mbx := rfl
@[simp] theorem setQueue_side (s : State) (q : Nat) (f : Queue → Queue) : (setQueue s q f).side = s.side := rfl
@[simp] theorem setQueue_tap (s : State) (q : Nat) (f : Queue → Queue) : (setQueue s q f).tap = s.tap := rfl
@[simp] theorem setQueue_jrn (s : State) (q : Nat) (f : Queue → Queue) : (setQueue s q f).jrn = s.jrn := rfl
@[simp] theorem setQueue_fab (s : State) (q : Nat) (f : Queue → Queue) : (setQueue s q f).fab = s.fab := rfl
@[simp] theorem setQueue_bank (s : State) (q : Nat) (f : Queue → Queue) : (setQueue s q f).bank = s.bank := rfl
@[simp] theorem setQueue_ldr (s : State) (q : Nat) (f : Queue → Queue) : (setQueue s q f).ldr = s.ldr := rfl
@[simp] theorem setQueue_swp (s : State) (q : Nat) (f : Queue → Queue) : (setQueue s q f).swp = s.swp := rfl
@[simp] theorem setQueue_alm (s : State) (q : Nat) (f : Queue → Queue) : (setQueue s q f).alm = s.alm := rfl
@[simp] theorem setQueue_host (s : State) (q : Nat) (f : Queue → Queue) : (setQueue s q f).host = s.host := rfl
@[simp] theorem setQueue_seg (s : State) (q : Nat) (f : Queue → Queue) : (setQueue s q f).seg = s.seg := rfl
@[simp] theorem setQueue_roster (s : State) (q : Nat) (f : Queue → Queue) : (setQueue s q f).roster = s.roster := rfl
@[simp] theorem setQueue_link (s : State) (q : Nat) (f : Queue → Queue) : (setQueue s q f).link = s.link := rfl
@[simp] theorem setQueue_timeSrc (s : State) (q : Nat) (f : Queue → Queue) : (setQueue s q f).timeSrc = s.timeSrc := rfl
@[simp] theorem setQueue_dram (s : State) (q : Nat) (f : Queue → Queue) : (setQueue s q f).dram = s.dram := rfl
@[simp] theorem setQueue_mgt (s : State) (q : Nat) (f : Queue → Queue) : (setQueue s q f).mgt = s.mgt := rfl
@[simp] theorem setQueue_hart0 (s : State) (q : Nat) (f : Queue → Queue) : (setQueue s q f).hart0 = s.hart0 := rfl
@[simp] theorem setQueue_hart1 (s : State) (q : Nat) (f : Queue → Queue) : (setQueue s q f).hart1 = s.hart1 := rfl
@[simp] theorem setQueue_hart2 (s : State) (q : Nat) (f : Queue → Queue) : (setQueue s q f).hart2 = s.hart2 := rfl
@[simp] theorem setQueue_hart3 (s : State) (q : Nat) (f : Queue → Queue) : (setQueue s q f).hart3 = s.hart3 := rfl
@[simp] theorem setQueue_pins (s : State) (q : Nat) (f : Queue → Queue) : (setQueue s q f).pins = s.pins := rfl
@[simp] theorem setQueue_ev (s : State) (q : Nat) (f : Queue → Queue) : (setQueue s q f).ev = s.ev := rfl
@[simp] theorem setQueue_lc (s : State) (q : Nat) (f : Queue → Queue) : (setQueue s q f).lc = s.lc := rfl
@[simp] theorem setQueue_cap (s : State) (q : Nat) (f : Queue → Queue) : (setQueue s q f).cap = s.cap := rfl
@[simp] theorem setQueue_flash (s : State) (q : Nat) (f : Queue → Queue) : (setQueue s q f).flash = s.flash := rfl
@[simp] theorem setQueue_outs (s : State) (q : Nat) (f : Queue → Queue) : (setQueue s q f).outs = s.outs := rfl
@[simp] theorem setQueue_freeCtr (s : State) (q : Nat) (f : Queue → Queue) : (setQueue s q f).freeCtr = s.freeCtr := rfl
@[simp] theorem setQueue_pending (s : State) (q : Nat) (f : Queue → Queue) : (setQueue s q f).pending = s.pending := rfl

@[simp] theorem setFsp_mode (s : State) (k : Nat) (f : Fsp → Fsp) : (setFsp s k f).mode = s.mode := rfl
@[simp] theorem setFsp_last (s : State) (k : Nat) (f : Fsp → Fsp) : (setFsp s k f).last = s.last := rfl
@[simp] theorem setFsp_runSince (s : State) (k : Nat) (f : Fsp → Fsp) : (setFsp s k f).runSince = s.runSince := rfl
@[simp] theorem setFsp_clk (s : State) (k : Nat) (f : Fsp → Fsp) : (setFsp s k f).clk = s.clk := rfl
@[simp] theorem setFsp_pwr (s : State) (k : Nat) (f : Fsp → Fsp) : (setFsp s k f).pwr = s.pwr := rfl
@[simp] theorem setFsp_regs (s : State) (k : Nat) (f : Fsp → Fsp) : (setFsp s k f).regs = s.regs := rfl
@[simp] theorem setFsp_vregs (s : State) (k : Nat) (f : Fsp → Fsp) : (setFsp s k f).vregs = s.vregs := rfl
@[simp] theorem setFsp_pregs (s : State) (k : Nat) (f : Fsp → Fsp) : (setFsp s k f).pregs = s.pregs := rfl
@[simp] theorem setFsp_hold (s : State) (k : Nat) (f : Fsp → Fsp) : (setFsp s k f).hold = s.hold := rfl
@[simp] theorem setFsp_framed (s : State) (k : Nat) (f : Fsp → Fsp) : (setFsp s k f).framed = s.framed := rfl
@[simp] theorem setFsp_mbx (s : State) (k : Nat) (f : Fsp → Fsp) : (setFsp s k f).mbx = s.mbx := rfl
@[simp] theorem setFsp_side (s : State) (k : Nat) (f : Fsp → Fsp) : (setFsp s k f).side = s.side := rfl
@[simp] theorem setFsp_tap (s : State) (k : Nat) (f : Fsp → Fsp) : (setFsp s k f).tap = s.tap := rfl
@[simp] theorem setFsp_jrn (s : State) (k : Nat) (f : Fsp → Fsp) : (setFsp s k f).jrn = s.jrn := rfl
@[simp] theorem setFsp_fab (s : State) (k : Nat) (f : Fsp → Fsp) : (setFsp s k f).fab = s.fab := rfl
@[simp] theorem setFsp_bank (s : State) (k : Nat) (f : Fsp → Fsp) : (setFsp s k f).bank = s.bank := rfl
@[simp] theorem setFsp_ldr (s : State) (k : Nat) (f : Fsp → Fsp) : (setFsp s k f).ldr = s.ldr := rfl
@[simp] theorem setFsp_swp (s : State) (k : Nat) (f : Fsp → Fsp) : (setFsp s k f).swp = s.swp := rfl
@[simp] theorem setFsp_alm (s : State) (k : Nat) (f : Fsp → Fsp) : (setFsp s k f).alm = s.alm := rfl
@[simp] theorem setFsp_host (s : State) (k : Nat) (f : Fsp → Fsp) : (setFsp s k f).host = s.host := rfl
@[simp] theorem setFsp_seg (s : State) (k : Nat) (f : Fsp → Fsp) : (setFsp s k f).seg = s.seg := rfl
@[simp] theorem setFsp_roster (s : State) (k : Nat) (f : Fsp → Fsp) : (setFsp s k f).roster = s.roster := rfl
@[simp] theorem setFsp_link (s : State) (k : Nat) (f : Fsp → Fsp) : (setFsp s k f).link = s.link := rfl
@[simp] theorem setFsp_timeSrc (s : State) (k : Nat) (f : Fsp → Fsp) : (setFsp s k f).timeSrc = s.timeSrc := rfl
@[simp] theorem setFsp_dram (s : State) (k : Nat) (f : Fsp → Fsp) : (setFsp s k f).dram = s.dram := rfl
@[simp] theorem setFsp_mgt (s : State) (k : Nat) (f : Fsp → Fsp) : (setFsp s k f).mgt = s.mgt := rfl
@[simp] theorem setFsp_hart0 (s : State) (k : Nat) (f : Fsp → Fsp) : (setFsp s k f).hart0 = s.hart0 := rfl
@[simp] theorem setFsp_hart1 (s : State) (k : Nat) (f : Fsp → Fsp) : (setFsp s k f).hart1 = s.hart1 := rfl
@[simp] theorem setFsp_hart2 (s : State) (k : Nat) (f : Fsp → Fsp) : (setFsp s k f).hart2 = s.hart2 := rfl
@[simp] theorem setFsp_hart3 (s : State) (k : Nat) (f : Fsp → Fsp) : (setFsp s k f).hart3 = s.hart3 := rfl
@[simp] theorem setFsp_pins (s : State) (k : Nat) (f : Fsp → Fsp) : (setFsp s k f).pins = s.pins := rfl
@[simp] theorem setFsp_ev (s : State) (k : Nat) (f : Fsp → Fsp) : (setFsp s k f).ev = s.ev := rfl
@[simp] theorem setFsp_lc (s : State) (k : Nat) (f : Fsp → Fsp) : (setFsp s k f).lc = s.lc := rfl
@[simp] theorem setFsp_cap (s : State) (k : Nat) (f : Fsp → Fsp) : (setFsp s k f).cap = s.cap := rfl
@[simp] theorem setFsp_flash (s : State) (k : Nat) (f : Fsp → Fsp) : (setFsp s k f).flash = s.flash := rfl
@[simp] theorem setFsp_outs (s : State) (k : Nat) (f : Fsp → Fsp) : (setFsp s k f).outs = s.outs := rfl
@[simp] theorem setFsp_freeCtr (s : State) (k : Nat) (f : Fsp → Fsp) : (setFsp s k f).freeCtr = s.freeCtr := rfl
@[simp] theorem setFsp_pending (s : State) (k : Nat) (f : Fsp → Fsp) : (setFsp s k f).pending = s.pending := rfl

@[simp] theorem setXfer_mode (s : State) (x : Xfer) : (setXfer s x).mode = s.mode := rfl
@[simp] theorem setXfer_last (s : State) (x : Xfer) : (setXfer s x).last = s.last := rfl
@[simp] theorem setXfer_runSince (s : State) (x : Xfer) : (setXfer s x).runSince = s.runSince := rfl
@[simp] theorem setXfer_clk (s : State) (x : Xfer) : (setXfer s x).clk = s.clk := rfl
@[simp] theorem setXfer_pwr (s : State) (x : Xfer) : (setXfer s x).pwr = s.pwr := rfl
@[simp] theorem setXfer_regs (s : State) (x : Xfer) : (setXfer s x).regs = s.regs := rfl
@[simp] theorem setXfer_vregs (s : State) (x : Xfer) : (setXfer s x).vregs = s.vregs := rfl
@[simp] theorem setXfer_pregs (s : State) (x : Xfer) : (setXfer s x).pregs = s.pregs := rfl
@[simp] theorem setXfer_hold (s : State) (x : Xfer) : (setXfer s x).hold = s.hold := rfl
@[simp] theorem setXfer_framed (s : State) (x : Xfer) : (setXfer s x).framed = s.framed := rfl
@[simp] theorem setXfer_mbx (s : State) (x : Xfer) : (setXfer s x).mbx = s.mbx := rfl
@[simp] theorem setXfer_side (s : State) (x : Xfer) : (setXfer s x).side = s.side := rfl
@[simp] theorem setXfer_tap (s : State) (x : Xfer) : (setXfer s x).tap = s.tap := rfl
@[simp] theorem setXfer_jrn (s : State) (x : Xfer) : (setXfer s x).jrn = s.jrn := rfl
@[simp] theorem setXfer_fab (s : State) (x : Xfer) : (setXfer s x).fab = s.fab := rfl
@[simp] theorem setXfer_bank (s : State) (x : Xfer) : (setXfer s x).bank = s.bank := rfl
@[simp] theorem setXfer_ldr (s : State) (x : Xfer) : (setXfer s x).ldr = s.ldr := rfl
@[simp] theorem setXfer_swp (s : State) (x : Xfer) : (setXfer s x).swp = s.swp := rfl
@[simp] theorem setXfer_alm (s : State) (x : Xfer) : (setXfer s x).alm = s.alm := rfl
@[simp] theorem setXfer_host (s : State) (x : Xfer) : (setXfer s x).host = s.host := rfl
@[simp] theorem setXfer_seg (s : State) (x : Xfer) : (setXfer s x).seg = s.seg := rfl
@[simp] theorem setXfer_roster (s : State) (x : Xfer) : (setXfer s x).roster = s.roster := rfl
@[simp] theorem setXfer_link (s : State) (x : Xfer) : (setXfer s x).link = s.link := rfl
@[simp] theorem setXfer_timeSrc (s : State) (x : Xfer) : (setXfer s x).timeSrc = s.timeSrc := rfl
@[simp] theorem setXfer_dram (s : State) (x : Xfer) : (setXfer s x).dram = s.dram := rfl
@[simp] theorem setXfer_mgt (s : State) (x : Xfer) : (setXfer s x).mgt = s.mgt := rfl
@[simp] theorem setXfer_hart0 (s : State) (x : Xfer) : (setXfer s x).hart0 = s.hart0 := rfl
@[simp] theorem setXfer_hart1 (s : State) (x : Xfer) : (setXfer s x).hart1 = s.hart1 := rfl
@[simp] theorem setXfer_hart2 (s : State) (x : Xfer) : (setXfer s x).hart2 = s.hart2 := rfl
@[simp] theorem setXfer_hart3 (s : State) (x : Xfer) : (setXfer s x).hart3 = s.hart3 := rfl
@[simp] theorem setXfer_pins (s : State) (x : Xfer) : (setXfer s x).pins = s.pins := rfl
@[simp] theorem setXfer_ev (s : State) (x : Xfer) : (setXfer s x).ev = s.ev := rfl
@[simp] theorem setXfer_lc (s : State) (x : Xfer) : (setXfer s x).lc = s.lc := rfl
@[simp] theorem setXfer_cap (s : State) (x : Xfer) : (setXfer s x).cap = s.cap := rfl
@[simp] theorem setXfer_flash (s : State) (x : Xfer) : (setXfer s x).flash = s.flash := rfl
@[simp] theorem setXfer_outs (s : State) (x : Xfer) : (setXfer s x).outs = s.outs := rfl
@[simp] theorem setXfer_freeCtr (s : State) (x : Xfer) : (setXfer s x).freeCtr = s.freeCtr := rfl
@[simp] theorem setXfer_pending (s : State) (x : Xfer) : (setXfer s x).pending = s.pending := rfl

@[simp] theorem setMac_mode (s : State) (r t : Nat) (m : Mac) : (setMac s r t m).mode = s.mode := rfl
@[simp] theorem setMac_last (s : State) (r t : Nat) (m : Mac) : (setMac s r t m).last = s.last := rfl
@[simp] theorem setMac_runSince (s : State) (r t : Nat) (m : Mac) : (setMac s r t m).runSince = s.runSince := rfl
@[simp] theorem setMac_clk (s : State) (r t : Nat) (m : Mac) : (setMac s r t m).clk = s.clk := rfl
@[simp] theorem setMac_pwr (s : State) (r t : Nat) (m : Mac) : (setMac s r t m).pwr = s.pwr := rfl
@[simp] theorem setMac_regs (s : State) (r t : Nat) (m : Mac) : (setMac s r t m).regs = s.regs := rfl
@[simp] theorem setMac_vregs (s : State) (r t : Nat) (m : Mac) : (setMac s r t m).vregs = s.vregs := rfl
@[simp] theorem setMac_pregs (s : State) (r t : Nat) (m : Mac) : (setMac s r t m).pregs = s.pregs := rfl
@[simp] theorem setMac_hold (s : State) (r t : Nat) (m : Mac) : (setMac s r t m).hold = s.hold := rfl
@[simp] theorem setMac_framed (s : State) (r t : Nat) (m : Mac) : (setMac s r t m).framed = s.framed := rfl
@[simp] theorem setMac_mbx (s : State) (r t : Nat) (m : Mac) : (setMac s r t m).mbx = s.mbx := rfl
@[simp] theorem setMac_side (s : State) (r t : Nat) (m : Mac) : (setMac s r t m).side = s.side := rfl
@[simp] theorem setMac_tap (s : State) (r t : Nat) (m : Mac) : (setMac s r t m).tap = s.tap := rfl
@[simp] theorem setMac_jrn (s : State) (r t : Nat) (m : Mac) : (setMac s r t m).jrn = s.jrn := rfl
@[simp] theorem setMac_bank (s : State) (r t : Nat) (m : Mac) : (setMac s r t m).bank = s.bank := rfl
@[simp] theorem setMac_ldr (s : State) (r t : Nat) (m : Mac) : (setMac s r t m).ldr = s.ldr := rfl
@[simp] theorem setMac_swp (s : State) (r t : Nat) (m : Mac) : (setMac s r t m).swp = s.swp := rfl
@[simp] theorem setMac_alm (s : State) (r t : Nat) (m : Mac) : (setMac s r t m).alm = s.alm := rfl
@[simp] theorem setMac_qe (s : State) (r t : Nat) (m : Mac) : (setMac s r t m).qe = s.qe := rfl
@[simp] theorem setMac_host (s : State) (r t : Nat) (m : Mac) : (setMac s r t m).host = s.host := rfl
@[simp] theorem setMac_seg (s : State) (r t : Nat) (m : Mac) : (setMac s r t m).seg = s.seg := rfl
@[simp] theorem setMac_roster (s : State) (r t : Nat) (m : Mac) : (setMac s r t m).roster = s.roster := rfl
@[simp] theorem setMac_link (s : State) (r t : Nat) (m : Mac) : (setMac s r t m).link = s.link := rfl
@[simp] theorem setMac_timeSrc (s : State) (r t : Nat) (m : Mac) : (setMac s r t m).timeSrc = s.timeSrc := rfl
@[simp] theorem setMac_dram (s : State) (r t : Nat) (m : Mac) : (setMac s r t m).dram = s.dram := rfl
@[simp] theorem setMac_mgt (s : State) (r t : Nat) (m : Mac) : (setMac s r t m).mgt = s.mgt := rfl
@[simp] theorem setMac_hart0 (s : State) (r t : Nat) (m : Mac) : (setMac s r t m).hart0 = s.hart0 := rfl
@[simp] theorem setMac_hart1 (s : State) (r t : Nat) (m : Mac) : (setMac s r t m).hart1 = s.hart1 := rfl
@[simp] theorem setMac_hart2 (s : State) (r t : Nat) (m : Mac) : (setMac s r t m).hart2 = s.hart2 := rfl
@[simp] theorem setMac_hart3 (s : State) (r t : Nat) (m : Mac) : (setMac s r t m).hart3 = s.hart3 := rfl
@[simp] theorem setMac_pins (s : State) (r t : Nat) (m : Mac) : (setMac s r t m).pins = s.pins := rfl
@[simp] theorem setMac_ev (s : State) (r t : Nat) (m : Mac) : (setMac s r t m).ev = s.ev := rfl
@[simp] theorem setMac_lc (s : State) (r t : Nat) (m : Mac) : (setMac s r t m).lc = s.lc := rfl
@[simp] theorem setMac_cap (s : State) (r t : Nat) (m : Mac) : (setMac s r t m).cap = s.cap := rfl
@[simp] theorem setMac_flash (s : State) (r t : Nat) (m : Mac) : (setMac s r t m).flash = s.flash := rfl
@[simp] theorem setMac_outs (s : State) (r t : Nat) (m : Mac) : (setMac s r t m).outs = s.outs := rfl
@[simp] theorem setMac_freeCtr (s : State) (r t : Nat) (m : Mac) : (setMac s r t m).freeCtr = s.freeCtr := rfl
@[simp] theorem setMac_pending (s : State) (r t : Nat) (m : Mac) : (setMac s r t m).pending = s.pending := rfl

@[simp] theorem setCycle_mode (s : State) (b : Nat) (c : ArrayCycle) : (setCycle s b c).mode = s.mode := rfl
@[simp] theorem setCycle_last (s : State) (b : Nat) (c : ArrayCycle) : (setCycle s b c).last = s.last := rfl
@[simp] theorem setCycle_runSince (s : State) (b : Nat) (c : ArrayCycle) : (setCycle s b c).runSince = s.runSince := rfl
@[simp] theorem setCycle_clk (s : State) (b : Nat) (c : ArrayCycle) : (setCycle s b c).clk = s.clk := rfl
@[simp] theorem setCycle_pwr (s : State) (b : Nat) (c : ArrayCycle) : (setCycle s b c).pwr = s.pwr := rfl
@[simp] theorem setCycle_regs (s : State) (b : Nat) (c : ArrayCycle) : (setCycle s b c).regs = s.regs := rfl
@[simp] theorem setCycle_vregs (s : State) (b : Nat) (c : ArrayCycle) : (setCycle s b c).vregs = s.vregs := rfl
@[simp] theorem setCycle_pregs (s : State) (b : Nat) (c : ArrayCycle) : (setCycle s b c).pregs = s.pregs := rfl
@[simp] theorem setCycle_hold (s : State) (b : Nat) (c : ArrayCycle) : (setCycle s b c).hold = s.hold := rfl
@[simp] theorem setCycle_framed (s : State) (b : Nat) (c : ArrayCycle) : (setCycle s b c).framed = s.framed := rfl
@[simp] theorem setCycle_mbx (s : State) (b : Nat) (c : ArrayCycle) : (setCycle s b c).mbx = s.mbx := rfl
@[simp] theorem setCycle_side (s : State) (b : Nat) (c : ArrayCycle) : (setCycle s b c).side = s.side := rfl
@[simp] theorem setCycle_tap (s : State) (b : Nat) (c : ArrayCycle) : (setCycle s b c).tap = s.tap := rfl
@[simp] theorem setCycle_jrn (s : State) (b : Nat) (c : ArrayCycle) : (setCycle s b c).jrn = s.jrn := rfl
@[simp] theorem setCycle_fab (s : State) (b : Nat) (c : ArrayCycle) : (setCycle s b c).fab = s.fab := rfl
@[simp] theorem setCycle_ldr (s : State) (b : Nat) (c : ArrayCycle) : (setCycle s b c).ldr = s.ldr := rfl
@[simp] theorem setCycle_swp (s : State) (b : Nat) (c : ArrayCycle) : (setCycle s b c).swp = s.swp := rfl
@[simp] theorem setCycle_alm (s : State) (b : Nat) (c : ArrayCycle) : (setCycle s b c).alm = s.alm := rfl
@[simp] theorem setCycle_qe (s : State) (b : Nat) (c : ArrayCycle) : (setCycle s b c).qe = s.qe := rfl
@[simp] theorem setCycle_host (s : State) (b : Nat) (c : ArrayCycle) : (setCycle s b c).host = s.host := rfl
@[simp] theorem setCycle_seg (s : State) (b : Nat) (c : ArrayCycle) : (setCycle s b c).seg = s.seg := rfl
@[simp] theorem setCycle_roster (s : State) (b : Nat) (c : ArrayCycle) : (setCycle s b c).roster = s.roster := rfl
@[simp] theorem setCycle_link (s : State) (b : Nat) (c : ArrayCycle) : (setCycle s b c).link = s.link := rfl
@[simp] theorem setCycle_timeSrc (s : State) (b : Nat) (c : ArrayCycle) : (setCycle s b c).timeSrc = s.timeSrc := rfl
@[simp] theorem setCycle_dram (s : State) (b : Nat) (c : ArrayCycle) : (setCycle s b c).dram = s.dram := rfl
@[simp] theorem setCycle_mgt (s : State) (b : Nat) (c : ArrayCycle) : (setCycle s b c).mgt = s.mgt := rfl
@[simp] theorem setCycle_hart0 (s : State) (b : Nat) (c : ArrayCycle) : (setCycle s b c).hart0 = s.hart0 := rfl
@[simp] theorem setCycle_hart1 (s : State) (b : Nat) (c : ArrayCycle) : (setCycle s b c).hart1 = s.hart1 := rfl
@[simp] theorem setCycle_hart2 (s : State) (b : Nat) (c : ArrayCycle) : (setCycle s b c).hart2 = s.hart2 := rfl
@[simp] theorem setCycle_hart3 (s : State) (b : Nat) (c : ArrayCycle) : (setCycle s b c).hart3 = s.hart3 := rfl
@[simp] theorem setCycle_pins (s : State) (b : Nat) (c : ArrayCycle) : (setCycle s b c).pins = s.pins := rfl
@[simp] theorem setCycle_ev (s : State) (b : Nat) (c : ArrayCycle) : (setCycle s b c).ev = s.ev := rfl
@[simp] theorem setCycle_lc (s : State) (b : Nat) (c : ArrayCycle) : (setCycle s b c).lc = s.lc := rfl
@[simp] theorem setCycle_cap (s : State) (b : Nat) (c : ArrayCycle) : (setCycle s b c).cap = s.cap := rfl
@[simp] theorem setCycle_flash (s : State) (b : Nat) (c : ArrayCycle) : (setCycle s b c).flash = s.flash := rfl
@[simp] theorem setCycle_outs (s : State) (b : Nat) (c : ArrayCycle) : (setCycle s b c).outs = s.outs := rfl
@[simp] theorem setCycle_freeCtr (s : State) (b : Nat) (c : ArrayCycle) : (setCycle s b c).freeCtr = s.freeCtr := rfl
@[simp] theorem setCycle_pending (s : State) (b : Nat) (c : ArrayCycle) : (setCycle s b c).pending = s.pending := rfl

@[simp] theorem setFn_mode (s : State) (fn : Nat) (f : Fn → Fn) : (setFn s fn f).mode = s.mode := rfl
@[simp] theorem setFn_last (s : State) (fn : Nat) (f : Fn → Fn) : (setFn s fn f).last = s.last := rfl
@[simp] theorem setFn_runSince (s : State) (fn : Nat) (f : Fn → Fn) : (setFn s fn f).runSince = s.runSince := rfl
@[simp] theorem setFn_clk (s : State) (fn : Nat) (f : Fn → Fn) : (setFn s fn f).clk = s.clk := rfl
@[simp] theorem setFn_pwr (s : State) (fn : Nat) (f : Fn → Fn) : (setFn s fn f).pwr = s.pwr := rfl
@[simp] theorem setFn_regs (s : State) (fn : Nat) (f : Fn → Fn) : (setFn s fn f).regs = s.regs := rfl
@[simp] theorem setFn_vregs (s : State) (fn : Nat) (f : Fn → Fn) : (setFn s fn f).vregs = s.vregs := rfl
@[simp] theorem setFn_pregs (s : State) (fn : Nat) (f : Fn → Fn) : (setFn s fn f).pregs = s.pregs := rfl
@[simp] theorem setFn_hold (s : State) (fn : Nat) (f : Fn → Fn) : (setFn s fn f).hold = s.hold := rfl
@[simp] theorem setFn_framed (s : State) (fn : Nat) (f : Fn → Fn) : (setFn s fn f).framed = s.framed := rfl
@[simp] theorem setFn_mbx (s : State) (fn : Nat) (f : Fn → Fn) : (setFn s fn f).mbx = s.mbx := rfl
@[simp] theorem setFn_side (s : State) (fn : Nat) (f : Fn → Fn) : (setFn s fn f).side = s.side := rfl
@[simp] theorem setFn_tap (s : State) (fn : Nat) (f : Fn → Fn) : (setFn s fn f).tap = s.tap := rfl
@[simp] theorem setFn_jrn (s : State) (fn : Nat) (f : Fn → Fn) : (setFn s fn f).jrn = s.jrn := rfl
@[simp] theorem setFn_fab (s : State) (fn : Nat) (f : Fn → Fn) : (setFn s fn f).fab = s.fab := rfl
@[simp] theorem setFn_bank (s : State) (fn : Nat) (f : Fn → Fn) : (setFn s fn f).bank = s.bank := rfl
@[simp] theorem setFn_ldr (s : State) (fn : Nat) (f : Fn → Fn) : (setFn s fn f).ldr = s.ldr := rfl
@[simp] theorem setFn_swp (s : State) (fn : Nat) (f : Fn → Fn) : (setFn s fn f).swp = s.swp := rfl
@[simp] theorem setFn_alm (s : State) (fn : Nat) (f : Fn → Fn) : (setFn s fn f).alm = s.alm := rfl
@[simp] theorem setFn_qe (s : State) (fn : Nat) (f : Fn → Fn) : (setFn s fn f).qe = s.qe := rfl
@[simp] theorem setFn_seg (s : State) (fn : Nat) (f : Fn → Fn) : (setFn s fn f).seg = s.seg := rfl
@[simp] theorem setFn_roster (s : State) (fn : Nat) (f : Fn → Fn) : (setFn s fn f).roster = s.roster := rfl
@[simp] theorem setFn_link (s : State) (fn : Nat) (f : Fn → Fn) : (setFn s fn f).link = s.link := rfl
@[simp] theorem setFn_timeSrc (s : State) (fn : Nat) (f : Fn → Fn) : (setFn s fn f).timeSrc = s.timeSrc := rfl
@[simp] theorem setFn_dram (s : State) (fn : Nat) (f : Fn → Fn) : (setFn s fn f).dram = s.dram := rfl
@[simp] theorem setFn_mgt (s : State) (fn : Nat) (f : Fn → Fn) : (setFn s fn f).mgt = s.mgt := rfl
@[simp] theorem setFn_hart0 (s : State) (fn : Nat) (f : Fn → Fn) : (setFn s fn f).hart0 = s.hart0 := rfl
@[simp] theorem setFn_hart1 (s : State) (fn : Nat) (f : Fn → Fn) : (setFn s fn f).hart1 = s.hart1 := rfl
@[simp] theorem setFn_hart2 (s : State) (fn : Nat) (f : Fn → Fn) : (setFn s fn f).hart2 = s.hart2 := rfl
@[simp] theorem setFn_hart3 (s : State) (fn : Nat) (f : Fn → Fn) : (setFn s fn f).hart3 = s.hart3 := rfl
@[simp] theorem setFn_pins (s : State) (fn : Nat) (f : Fn → Fn) : (setFn s fn f).pins = s.pins := rfl
@[simp] theorem setFn_ev (s : State) (fn : Nat) (f : Fn → Fn) : (setFn s fn f).ev = s.ev := rfl
@[simp] theorem setFn_lc (s : State) (fn : Nat) (f : Fn → Fn) : (setFn s fn f).lc = s.lc := rfl
@[simp] theorem setFn_cap (s : State) (fn : Nat) (f : Fn → Fn) : (setFn s fn f).cap = s.cap := rfl
@[simp] theorem setFn_flash (s : State) (fn : Nat) (f : Fn → Fn) : (setFn s fn f).flash = s.flash := rfl
@[simp] theorem setFn_outs (s : State) (fn : Nat) (f : Fn → Fn) : (setFn s fn f).outs = s.outs := rfl
@[simp] theorem setFn_freeCtr (s : State) (fn : Nat) (f : Fn → Fn) : (setFn s fn f).freeCtr = s.freeCtr := rfl
@[simp] theorem setFn_pending (s : State) (fn : Nat) (f : Fn → Fn) : (setFn s fn f).pending = s.pending := rfl

@[simp] theorem setCopy_mode (s : State) (p : Nat) (c : Copy) : (setCopy s p c).mode = s.mode := rfl
@[simp] theorem setCopy_last (s : State) (p : Nat) (c : Copy) : (setCopy s p c).last = s.last := rfl
@[simp] theorem setCopy_runSince (s : State) (p : Nat) (c : Copy) : (setCopy s p c).runSince = s.runSince := rfl
@[simp] theorem setCopy_clk (s : State) (p : Nat) (c : Copy) : (setCopy s p c).clk = s.clk := rfl
@[simp] theorem setCopy_pwr (s : State) (p : Nat) (c : Copy) : (setCopy s p c).pwr = s.pwr := rfl
@[simp] theorem setCopy_regs (s : State) (p : Nat) (c : Copy) : (setCopy s p c).regs = s.regs := rfl
@[simp] theorem setCopy_vregs (s : State) (p : Nat) (c : Copy) : (setCopy s p c).vregs = s.vregs := rfl
@[simp] theorem setCopy_pregs (s : State) (p : Nat) (c : Copy) : (setCopy s p c).pregs = s.pregs := rfl
@[simp] theorem setCopy_hold (s : State) (p : Nat) (c : Copy) : (setCopy s p c).hold = s.hold := rfl
@[simp] theorem setCopy_framed (s : State) (p : Nat) (c : Copy) : (setCopy s p c).framed = s.framed := rfl
@[simp] theorem setCopy_mbx (s : State) (p : Nat) (c : Copy) : (setCopy s p c).mbx = s.mbx := rfl
@[simp] theorem setCopy_side (s : State) (p : Nat) (c : Copy) : (setCopy s p c).side = s.side := rfl
@[simp] theorem setCopy_tap (s : State) (p : Nat) (c : Copy) : (setCopy s p c).tap = s.tap := rfl
@[simp] theorem setCopy_jrn (s : State) (p : Nat) (c : Copy) : (setCopy s p c).jrn = s.jrn := rfl
@[simp] theorem setCopy_fab (s : State) (p : Nat) (c : Copy) : (setCopy s p c).fab = s.fab := rfl
@[simp] theorem setCopy_bank (s : State) (p : Nat) (c : Copy) : (setCopy s p c).bank = s.bank := rfl
@[simp] theorem setCopy_ldr (s : State) (p : Nat) (c : Copy) : (setCopy s p c).ldr = s.ldr := rfl
@[simp] theorem setCopy_swp (s : State) (p : Nat) (c : Copy) : (setCopy s p c).swp = s.swp := rfl
@[simp] theorem setCopy_alm (s : State) (p : Nat) (c : Copy) : (setCopy s p c).alm = s.alm := rfl
@[simp] theorem setCopy_qe (s : State) (p : Nat) (c : Copy) : (setCopy s p c).qe = s.qe := rfl
@[simp] theorem setCopy_seg (s : State) (p : Nat) (c : Copy) : (setCopy s p c).seg = s.seg := rfl
@[simp] theorem setCopy_roster (s : State) (p : Nat) (c : Copy) : (setCopy s p c).roster = s.roster := rfl
@[simp] theorem setCopy_link (s : State) (p : Nat) (c : Copy) : (setCopy s p c).link = s.link := rfl
@[simp] theorem setCopy_timeSrc (s : State) (p : Nat) (c : Copy) : (setCopy s p c).timeSrc = s.timeSrc := rfl
@[simp] theorem setCopy_dram (s : State) (p : Nat) (c : Copy) : (setCopy s p c).dram = s.dram := rfl
@[simp] theorem setCopy_mgt (s : State) (p : Nat) (c : Copy) : (setCopy s p c).mgt = s.mgt := rfl
@[simp] theorem setCopy_hart0 (s : State) (p : Nat) (c : Copy) : (setCopy s p c).hart0 = s.hart0 := rfl
@[simp] theorem setCopy_hart1 (s : State) (p : Nat) (c : Copy) : (setCopy s p c).hart1 = s.hart1 := rfl
@[simp] theorem setCopy_hart2 (s : State) (p : Nat) (c : Copy) : (setCopy s p c).hart2 = s.hart2 := rfl
@[simp] theorem setCopy_hart3 (s : State) (p : Nat) (c : Copy) : (setCopy s p c).hart3 = s.hart3 := rfl
@[simp] theorem setCopy_pins (s : State) (p : Nat) (c : Copy) : (setCopy s p c).pins = s.pins := rfl
@[simp] theorem setCopy_ev (s : State) (p : Nat) (c : Copy) : (setCopy s p c).ev = s.ev := rfl
@[simp] theorem setCopy_lc (s : State) (p : Nat) (c : Copy) : (setCopy s p c).lc = s.lc := rfl
@[simp] theorem setCopy_cap (s : State) (p : Nat) (c : Copy) : (setCopy s p c).cap = s.cap := rfl
@[simp] theorem setCopy_flash (s : State) (p : Nat) (c : Copy) : (setCopy s p c).flash = s.flash := rfl
@[simp] theorem setCopy_outs (s : State) (p : Nat) (c : Copy) : (setCopy s p c).outs = s.outs := rfl
@[simp] theorem setCopy_freeCtr (s : State) (p : Nat) (c : Copy) : (setCopy s p c).freeCtr = s.freeCtr := rfl
@[simp] theorem setCopy_pending (s : State) (p : Nat) (c : Copy) : (setCopy s p c).pending = s.pending := rfl

@[simp] theorem setLoadStat_mode (s : State) (v : Nat) (f : LoadStat → LoadStat) : (setLoadStat s v f).mode = s.mode := rfl
@[simp] theorem setLoadStat_last (s : State) (v : Nat) (f : LoadStat → LoadStat) : (setLoadStat s v f).last = s.last := rfl
@[simp] theorem setLoadStat_runSince (s : State) (v : Nat) (f : LoadStat → LoadStat) : (setLoadStat s v f).runSince = s.runSince := rfl
@[simp] theorem setLoadStat_clk (s : State) (v : Nat) (f : LoadStat → LoadStat) : (setLoadStat s v f).clk = s.clk := rfl
@[simp] theorem setLoadStat_pwr (s : State) (v : Nat) (f : LoadStat → LoadStat) : (setLoadStat s v f).pwr = s.pwr := rfl
@[simp] theorem setLoadStat_regs (s : State) (v : Nat) (f : LoadStat → LoadStat) : (setLoadStat s v f).regs = s.regs := rfl
@[simp] theorem setLoadStat_vregs (s : State) (v : Nat) (f : LoadStat → LoadStat) : (setLoadStat s v f).vregs = s.vregs := rfl
@[simp] theorem setLoadStat_pregs (s : State) (v : Nat) (f : LoadStat → LoadStat) : (setLoadStat s v f).pregs = s.pregs := rfl
@[simp] theorem setLoadStat_hold (s : State) (v : Nat) (f : LoadStat → LoadStat) : (setLoadStat s v f).hold = s.hold := rfl
@[simp] theorem setLoadStat_framed (s : State) (v : Nat) (f : LoadStat → LoadStat) : (setLoadStat s v f).framed = s.framed := rfl
@[simp] theorem setLoadStat_mbx (s : State) (v : Nat) (f : LoadStat → LoadStat) : (setLoadStat s v f).mbx = s.mbx := rfl
@[simp] theorem setLoadStat_side (s : State) (v : Nat) (f : LoadStat → LoadStat) : (setLoadStat s v f).side = s.side := rfl
@[simp] theorem setLoadStat_tap (s : State) (v : Nat) (f : LoadStat → LoadStat) : (setLoadStat s v f).tap = s.tap := rfl
@[simp] theorem setLoadStat_jrn (s : State) (v : Nat) (f : LoadStat → LoadStat) : (setLoadStat s v f).jrn = s.jrn := rfl
@[simp] theorem setLoadStat_fab (s : State) (v : Nat) (f : LoadStat → LoadStat) : (setLoadStat s v f).fab = s.fab := rfl
@[simp] theorem setLoadStat_bank (s : State) (v : Nat) (f : LoadStat → LoadStat) : (setLoadStat s v f).bank = s.bank := rfl
@[simp] theorem setLoadStat_swp (s : State) (v : Nat) (f : LoadStat → LoadStat) : (setLoadStat s v f).swp = s.swp := rfl
@[simp] theorem setLoadStat_alm (s : State) (v : Nat) (f : LoadStat → LoadStat) : (setLoadStat s v f).alm = s.alm := rfl
@[simp] theorem setLoadStat_qe (s : State) (v : Nat) (f : LoadStat → LoadStat) : (setLoadStat s v f).qe = s.qe := rfl
@[simp] theorem setLoadStat_host (s : State) (v : Nat) (f : LoadStat → LoadStat) : (setLoadStat s v f).host = s.host := rfl
@[simp] theorem setLoadStat_seg (s : State) (v : Nat) (f : LoadStat → LoadStat) : (setLoadStat s v f).seg = s.seg := rfl
@[simp] theorem setLoadStat_roster (s : State) (v : Nat) (f : LoadStat → LoadStat) : (setLoadStat s v f).roster = s.roster := rfl
@[simp] theorem setLoadStat_link (s : State) (v : Nat) (f : LoadStat → LoadStat) : (setLoadStat s v f).link = s.link := rfl
@[simp] theorem setLoadStat_timeSrc (s : State) (v : Nat) (f : LoadStat → LoadStat) : (setLoadStat s v f).timeSrc = s.timeSrc := rfl
@[simp] theorem setLoadStat_dram (s : State) (v : Nat) (f : LoadStat → LoadStat) : (setLoadStat s v f).dram = s.dram := rfl
@[simp] theorem setLoadStat_mgt (s : State) (v : Nat) (f : LoadStat → LoadStat) : (setLoadStat s v f).mgt = s.mgt := rfl
@[simp] theorem setLoadStat_hart0 (s : State) (v : Nat) (f : LoadStat → LoadStat) : (setLoadStat s v f).hart0 = s.hart0 := rfl
@[simp] theorem setLoadStat_hart1 (s : State) (v : Nat) (f : LoadStat → LoadStat) : (setLoadStat s v f).hart1 = s.hart1 := rfl
@[simp] theorem setLoadStat_hart2 (s : State) (v : Nat) (f : LoadStat → LoadStat) : (setLoadStat s v f).hart2 = s.hart2 := rfl
@[simp] theorem setLoadStat_hart3 (s : State) (v : Nat) (f : LoadStat → LoadStat) : (setLoadStat s v f).hart3 = s.hart3 := rfl
@[simp] theorem setLoadStat_pins (s : State) (v : Nat) (f : LoadStat → LoadStat) : (setLoadStat s v f).pins = s.pins := rfl
@[simp] theorem setLoadStat_ev (s : State) (v : Nat) (f : LoadStat → LoadStat) : (setLoadStat s v f).ev = s.ev := rfl
@[simp] theorem setLoadStat_lc (s : State) (v : Nat) (f : LoadStat → LoadStat) : (setLoadStat s v f).lc = s.lc := rfl
@[simp] theorem setLoadStat_cap (s : State) (v : Nat) (f : LoadStat → LoadStat) : (setLoadStat s v f).cap = s.cap := rfl
@[simp] theorem setLoadStat_flash (s : State) (v : Nat) (f : LoadStat → LoadStat) : (setLoadStat s v f).flash = s.flash := rfl
@[simp] theorem setLoadStat_outs (s : State) (v : Nat) (f : LoadStat → LoadStat) : (setLoadStat s v f).outs = s.outs := rfl
@[simp] theorem setLoadStat_freeCtr (s : State) (v : Nat) (f : LoadStat → LoadStat) : (setLoadStat s v f).freeCtr = s.freeCtr := rfl
@[simp] theorem setLoadStat_pending (s : State) (v : Nat) (f : LoadStat → LoadStat) : (setLoadStat s v f).pending = s.pending := rfl

@[simp] theorem putByte_mode (s : State) (k : Nat) (d : Byte) (c : Chk) : (putByte s k d c).mode = s.mode := rfl
@[simp] theorem putByte_last (s : State) (k : Nat) (d : Byte) (c : Chk) : (putByte s k d c).last = s.last := rfl
@[simp] theorem putByte_runSince (s : State) (k : Nat) (d : Byte) (c : Chk) : (putByte s k d c).runSince = s.runSince := rfl
@[simp] theorem putByte_clk (s : State) (k : Nat) (d : Byte) (c : Chk) : (putByte s k d c).clk = s.clk := rfl
@[simp] theorem putByte_pwr (s : State) (k : Nat) (d : Byte) (c : Chk) : (putByte s k d c).pwr = s.pwr := rfl
@[simp] theorem putByte_regs (s : State) (k : Nat) (d : Byte) (c : Chk) : (putByte s k d c).regs = s.regs := rfl
@[simp] theorem putByte_vregs (s : State) (k : Nat) (d : Byte) (c : Chk) : (putByte s k d c).vregs = s.vregs := rfl
@[simp] theorem putByte_pregs (s : State) (k : Nat) (d : Byte) (c : Chk) : (putByte s k d c).pregs = s.pregs := rfl
@[simp] theorem putByte_hold (s : State) (k : Nat) (d : Byte) (c : Chk) : (putByte s k d c).hold = s.hold := rfl
@[simp] theorem putByte_framed (s : State) (k : Nat) (d : Byte) (c : Chk) : (putByte s k d c).framed = s.framed := rfl
@[simp] theorem putByte_mbx (s : State) (k : Nat) (d : Byte) (c : Chk) : (putByte s k d c).mbx = s.mbx := rfl
@[simp] theorem putByte_side (s : State) (k : Nat) (d : Byte) (c : Chk) : (putByte s k d c).side = s.side := rfl
@[simp] theorem putByte_tap (s : State) (k : Nat) (d : Byte) (c : Chk) : (putByte s k d c).tap = s.tap := rfl
@[simp] theorem putByte_jrn (s : State) (k : Nat) (d : Byte) (c : Chk) : (putByte s k d c).jrn = s.jrn := rfl
@[simp] theorem putByte_fab (s : State) (k : Nat) (d : Byte) (c : Chk) : (putByte s k d c).fab = s.fab := rfl
@[simp] theorem putByte_ldr (s : State) (k : Nat) (d : Byte) (c : Chk) : (putByte s k d c).ldr = s.ldr := rfl
@[simp] theorem putByte_swp (s : State) (k : Nat) (d : Byte) (c : Chk) : (putByte s k d c).swp = s.swp := rfl
@[simp] theorem putByte_alm (s : State) (k : Nat) (d : Byte) (c : Chk) : (putByte s k d c).alm = s.alm := rfl
@[simp] theorem putByte_qe (s : State) (k : Nat) (d : Byte) (c : Chk) : (putByte s k d c).qe = s.qe := rfl
@[simp] theorem putByte_host (s : State) (k : Nat) (d : Byte) (c : Chk) : (putByte s k d c).host = s.host := rfl
@[simp] theorem putByte_seg (s : State) (k : Nat) (d : Byte) (c : Chk) : (putByte s k d c).seg = s.seg := rfl
@[simp] theorem putByte_roster (s : State) (k : Nat) (d : Byte) (c : Chk) : (putByte s k d c).roster = s.roster := rfl
@[simp] theorem putByte_link (s : State) (k : Nat) (d : Byte) (c : Chk) : (putByte s k d c).link = s.link := rfl
@[simp] theorem putByte_timeSrc (s : State) (k : Nat) (d : Byte) (c : Chk) : (putByte s k d c).timeSrc = s.timeSrc := rfl
@[simp] theorem putByte_dram (s : State) (k : Nat) (d : Byte) (c : Chk) : (putByte s k d c).dram = s.dram := rfl
@[simp] theorem putByte_mgt (s : State) (k : Nat) (d : Byte) (c : Chk) : (putByte s k d c).mgt = s.mgt := rfl
@[simp] theorem putByte_hart0 (s : State) (k : Nat) (d : Byte) (c : Chk) : (putByte s k d c).hart0 = s.hart0 := rfl
@[simp] theorem putByte_hart1 (s : State) (k : Nat) (d : Byte) (c : Chk) : (putByte s k d c).hart1 = s.hart1 := rfl
@[simp] theorem putByte_hart2 (s : State) (k : Nat) (d : Byte) (c : Chk) : (putByte s k d c).hart2 = s.hart2 := rfl
@[simp] theorem putByte_hart3 (s : State) (k : Nat) (d : Byte) (c : Chk) : (putByte s k d c).hart3 = s.hart3 := rfl
@[simp] theorem putByte_pins (s : State) (k : Nat) (d : Byte) (c : Chk) : (putByte s k d c).pins = s.pins := rfl
@[simp] theorem putByte_ev (s : State) (k : Nat) (d : Byte) (c : Chk) : (putByte s k d c).ev = s.ev := rfl
@[simp] theorem putByte_lc (s : State) (k : Nat) (d : Byte) (c : Chk) : (putByte s k d c).lc = s.lc := rfl
@[simp] theorem putByte_cap (s : State) (k : Nat) (d : Byte) (c : Chk) : (putByte s k d c).cap = s.cap := rfl
@[simp] theorem putByte_flash (s : State) (k : Nat) (d : Byte) (c : Chk) : (putByte s k d c).flash = s.flash := rfl
@[simp] theorem putByte_outs (s : State) (k : Nat) (d : Byte) (c : Chk) : (putByte s k d c).outs = s.outs := rfl
@[simp] theorem putByte_freeCtr (s : State) (k : Nat) (d : Byte) (c : Chk) : (putByte s k d c).freeCtr = s.freeCtr := rfl
@[simp] theorem putByte_pending (s : State) (k : Nat) (d : Byte) (c : Chk) : (putByte s k d c).pending = s.pending := rfl

@[simp] theorem setHart_mode (s : State) (h : Nat) (x : Hart) : (setHart s h x).mode = s.mode := by
  unfold setHart; split <;> rfl
@[simp] theorem setHart_last (s : State) (h : Nat) (x : Hart) : (setHart s h x).last = s.last := by
  unfold setHart; split <;> rfl
@[simp] theorem setHart_runSince (s : State) (h : Nat) (x : Hart) : (setHart s h x).runSince = s.runSince := by
  unfold setHart; split <;> rfl
@[simp] theorem setHart_clk (s : State) (h : Nat) (x : Hart) : (setHart s h x).clk = s.clk := by
  unfold setHart; split <;> rfl
@[simp] theorem setHart_pwr (s : State) (h : Nat) (x : Hart) : (setHart s h x).pwr = s.pwr := by
  unfold setHart; split <;> rfl
@[simp] theorem setHart_regs (s : State) (h : Nat) (x : Hart) : (setHart s h x).regs = s.regs := by
  unfold setHart; split <;> rfl
@[simp] theorem setHart_vregs (s : State) (h : Nat) (x : Hart) : (setHart s h x).vregs = s.vregs := by
  unfold setHart; split <;> rfl
@[simp] theorem setHart_pregs (s : State) (h : Nat) (x : Hart) : (setHart s h x).pregs = s.pregs := by
  unfold setHart; split <;> rfl
@[simp] theorem setHart_hold (s : State) (h : Nat) (x : Hart) : (setHart s h x).hold = s.hold := by
  unfold setHart; split <;> rfl
@[simp] theorem setHart_framed (s : State) (h : Nat) (x : Hart) : (setHart s h x).framed = s.framed := by
  unfold setHart; split <;> rfl
@[simp] theorem setHart_mbx (s : State) (h : Nat) (x : Hart) : (setHart s h x).mbx = s.mbx := by
  unfold setHart; split <;> rfl
@[simp] theorem setHart_side (s : State) (h : Nat) (x : Hart) : (setHart s h x).side = s.side := by
  unfold setHart; split <;> rfl
@[simp] theorem setHart_tap (s : State) (h : Nat) (x : Hart) : (setHart s h x).tap = s.tap := by
  unfold setHart; split <;> rfl
@[simp] theorem setHart_jrn (s : State) (h : Nat) (x : Hart) : (setHart s h x).jrn = s.jrn := by
  unfold setHart; split <;> rfl
@[simp] theorem setHart_fab (s : State) (h : Nat) (x : Hart) : (setHart s h x).fab = s.fab := by
  unfold setHart; split <;> rfl
@[simp] theorem setHart_bank (s : State) (h : Nat) (x : Hart) : (setHart s h x).bank = s.bank := by
  unfold setHart; split <;> rfl
@[simp] theorem setHart_ldr (s : State) (h : Nat) (x : Hart) : (setHart s h x).ldr = s.ldr := by
  unfold setHart; split <;> rfl
@[simp] theorem setHart_swp (s : State) (h : Nat) (x : Hart) : (setHart s h x).swp = s.swp := by
  unfold setHart; split <;> rfl
@[simp] theorem setHart_alm (s : State) (h : Nat) (x : Hart) : (setHart s h x).alm = s.alm := by
  unfold setHart; split <;> rfl
@[simp] theorem setHart_qe (s : State) (h : Nat) (x : Hart) : (setHart s h x).qe = s.qe := by
  unfold setHart; split <;> rfl
@[simp] theorem setHart_host (s : State) (h : Nat) (x : Hart) : (setHart s h x).host = s.host := by
  unfold setHart; split <;> rfl
@[simp] theorem setHart_seg (s : State) (h : Nat) (x : Hart) : (setHart s h x).seg = s.seg := by
  unfold setHart; split <;> rfl
@[simp] theorem setHart_roster (s : State) (h : Nat) (x : Hart) : (setHart s h x).roster = s.roster := by
  unfold setHart; split <;> rfl
@[simp] theorem setHart_link (s : State) (h : Nat) (x : Hart) : (setHart s h x).link = s.link := by
  unfold setHart; split <;> rfl
@[simp] theorem setHart_timeSrc (s : State) (h : Nat) (x : Hart) : (setHart s h x).timeSrc = s.timeSrc := by
  unfold setHart; split <;> rfl
@[simp] theorem setHart_dram (s : State) (h : Nat) (x : Hart) : (setHart s h x).dram = s.dram := by
  unfold setHart; split <;> rfl
@[simp] theorem setHart_mgt (s : State) (h : Nat) (x : Hart) : (setHart s h x).mgt = s.mgt := by
  unfold setHart; split <;> rfl
@[simp] theorem setHart_pins (s : State) (h : Nat) (x : Hart) : (setHart s h x).pins = s.pins := by
  unfold setHart; split <;> rfl
@[simp] theorem setHart_ev (s : State) (h : Nat) (x : Hart) : (setHart s h x).ev = s.ev := by
  unfold setHart; split <;> rfl
@[simp] theorem setHart_lc (s : State) (h : Nat) (x : Hart) : (setHart s h x).lc = s.lc := by
  unfold setHart; split <;> rfl
@[simp] theorem setHart_cap (s : State) (h : Nat) (x : Hart) : (setHart s h x).cap = s.cap := by
  unfold setHart; split <;> rfl
@[simp] theorem setHart_flash (s : State) (h : Nat) (x : Hart) : (setHart s h x).flash = s.flash := by
  unfold setHart; split <;> rfl
@[simp] theorem setHart_outs (s : State) (h : Nat) (x : Hart) : (setHart s h x).outs = s.outs := by
  unfold setHart; split <;> rfl
@[simp] theorem setHart_freeCtr (s : State) (h : Nat) (x : Hart) : (setHart s h x).freeCtr = s.freeCtr := by
  unfold setHart; split <;> rfl
@[simp] theorem setHart_pending (s : State) (h : Nat) (x : Hart) : (setHart s h x).pending = s.pending := by
  unfold setHart; split <;> rfl

end Sys2Proof.Laws
end

