-- ==== Sys2Proof/Tests/Slice0.lean ====
section
/-! SUPPORT. Tests: ill-formed commands, small steps taken from the manual's tables and examples, and for every statement
with hypotheses a concrete state that meets them (the theorems `witness_...`). -/

open Sys2Proof Sys2Proof.Machine

namespace Sys2Proof.Tests

set_option Elab.async false

/-! Well-formed commands: each check refuses a term. -/

/-- A submission of a ring pair. -/
def goodSub : Submission := ⟨.ring 0 0, 0, 0, 0, 0, 0, 0, []⟩

theorem test_wf_refuses_1 : ([
    .registerWrite (.vf 0) 0 0 0, .registerWrite (.hart 4) 0 0 0, .hiWrite .pf0 0x100000 0, .portBRequest 0 0 0 (.read 0),
    .portBRequest 0 0 0 (.amo 9 0), .registerWrite (.vf 16) 0 0 0, .registerWrite .pf0 2 0 0, .hiWrite (.vf 16) 0 0,
    .hiWrite .pf0 2 0, .framedWrite (.vf 16) 0 0, .framedWrite .pf0 2 0, .cancel (.vf 16), .registerAbort (.vf 16) 0 false 0,
    .registerAbort .pf0 2 false 0, .prtCtlLock (.vf 16), .prtRgnWrite (.vf 16) 0 0, .prtRgnWrite .pf0 96 0,
    .brgGateWrite (.vf 16) 0 0, .brgGateWrite .pf0 64 0, .mailboxSelect (.vf 16) 0, .mailboxSnapshot (.vf 16),
    .mailboxAbort (.vf 16), .mbxD7Read (.vf 16), .sideWrite 16777216 0, .sideRead 16777216, .sideStream 16777216 [],
    .extest [(256, false, false)], .samplePreload [(256, false, false)], .access 1536 none, .portARead 1536 false 0,
    .portARead 0 false 32768, .portAWrite 1536 false 0 0, .portAWrite 0 false 32768 0, .accAdd 384 0 0 none,
    .accAdd 0 12 0 none, .accAdd 0 0 2 none, .accLoad 384 0 0 none, .accLoad 0 12 0 none, .accLoad 0 0 2 none,
    .accClear 384 0 0 none, .accClear 0 12 0 none, .accClear 0 0 2 none, .ldk 384 0 0 none, .ldk 0 12 0 none, .ldk 0 0 2 none] : List Instr).all
      (fun i => !i.wf) = true := by decide

theorem test_wf_refuses_2 : ([
    .direct 384 0 none, .direct 0 12 none, .portBRequest 8 0 0 (.read 1), .portBRequest 0 16 0 (.read 1),
    .portBRequest 0 0 0 (.write []), .portBService 1536, .bankHandover (.vf 16) 0 0, .bankHandover .pf0 1536 0,
    .bankFillDone 1536, .startSide (.vf 16), .cfgFdatWrite (.vf 16) 0, .abort (.vf 16), .swap (.desc 4096),
    .swap (.reg (.vf 0) 0), .swapCancel (.desc 4096), .swapCancel (.reg (.vf 0) 0), .clear (.desc 4096),
    .clear (.reg (.vf 0) 0), .swapEdge 16 0, .swapEdge 0 4, .drainDeadline 1048576, .configScrubRead [4096] [],
    .systimeLoad (.vf 16) 0, .timCtlWrite (.vf 16) 0, .timFlenWrite (.vf 16) 0, .timHlenWrite (.vf 16) 0,
    .timArangeWrite (.vf 16) 0 0, .timArangeWrite .pf0 16 0, .almanacEntryWrite (.vf 16) 0, .afile 4096, .afileDone 16,
    .copyPage (.desc 4096), .copyPage (.reg (.vf 0) 0), .pageCopyDone 16, .flip (.desc 4096), .flip (.reg (.vf 0) 0),
    .flipCheckDone 16, .flipCancel (.desc 4096), .flipCancel (.reg (.vf 0) 0), .dramRefresh 2, .queueConfig (.vf 16) 0,
    .submission { goodSub with part := 16 }, .submission { goodSub with qid := 1048576 },
    .submission { goodSub with len := 65536 }, .submission { goodSub with src := .ring 4096 0 }] : List Instr).all
      (fun i => !i.wf) = true := by decide

theorem test_wf_refuses_3 : ([
    .submission { goodSub with src := .fsp 256 0 }, .submission { goodSub with src := .seg 192 },
    .submission { goodSub with src := .link 8 0 }, .spillReturn 16 [], .cellDelivery 8192, .late 0 16, .dbcnt 256 0,
    .dbcnt 0 65536, .fspEntryRead 256, .fspCompletionWord 256, .fspRingEnable (.vf 16) 0 0, .fspRingEnable .pf0 256 0,
    .fspOwnerWrite (.vf 16) 0 0, .fspOwnerWrite .pf0 64 0, .migrate (.desc 4096), .migrate (.reg (.vf 0) 0),
    .sqDoorbell 4096 0 0 0, .cqDoorbell 4096 0 0 0, .ringConfig (.vf 16) 0, .descriptorFetch 4096 none, .xfer 4096,
    .rxbuf 4096, .load 4096 [], .load 0 [384], .jdrain 4096, .copy 4096, .copyStart 16, .unit 16, .descInvalid 4096,
    .msixCoalesce 4096, .hcapChange 0 1, .hcapChange 6 1, .hcapChange 1 3, .flr 16, .segCtlWrite (.vf 16) 0 0,
    .segCtlWrite .pf0 192 0, .beacon 192, .beaconReceived 192, .beaconerr 192, .toTimer 192, .transmitOpportunity 192 .good,
    .segFrameReceived 192 .badFcs, .rosterCommit (.vf 16) 0, .nodeAbsent 192 0, .nodeAbsent 0 64] : List Instr).all
      (fun i => !i.wf) = true := by decide

theorem test_wf_refuses_4 : ([
    .slotBlockReceived 8 0 0 0, .linkCellReceived 8 0 (List.replicate 256 0), .linkCellReceived 0 0 [],
    .linkEnable (.vf 16) 0 0, .linkEnable .pf0 8 0, .linkDisable (.vf 16) 0 0, .linkDisable .pf0 8 0, .laneLock 8, .hello 8 0,
    .ack 8 0, .ready 8 0, .handshakeTimeout 8, .absent 8, .retrain 8, .lockReturn 8, .retryTimer 8, .dramTraining 2 none,
    .dramRequest 8 0 0 (.read 1), .dramRequest 0 16 0 (.read 1), .dramRequest 0 0 0 (.write []), .dramCompletion 2 0 [],
    .dramCompletion 0 16 [], .windowFill (.vf 16) 0 0, .windowFill .pf0 256 0, .fillDone 256, .scrubVisit 5 [] false,
    .memLogpop (.vf 16) 0, .bnkRetire (.vf 16) 0, .memRetire (.vf 16) 0, .hartLoad 4 0 0 4 false, .hartLoad 0 32 0 4 false,
    .hartLoad 0 0 0 3 false, .hartStore 4 0 4 0, .hartStore 0 0 3 0, .storeDrain 4, .fence 4 0 false, .fenceI 4, .lr 4 0 0,
    .lr 0 32 0, .sc 4 0 0 0 false, .sc 0 32 0 0 false, .amo 4 0 .add 0 0 false, .amo 0 32 .add 0 0 false, .wfi 4,
    .hartTrap 4 false 0 0] : List Instr).all
      (fun i => !i.wf) = true := by decide

theorem test_wf_refuses_5 : ([
    .hartRun (.vf 16) 0 0, .hartRun .pf0 4 0, .rst (.vf 16) 0 0, .rst .pf0 4 0, .evtClaim (.vf 16) 0, .evtClaim .pf0 4,
    .pinConfigWrite (.vf 16) 0 false 0, .pinConfigWrite .pf0 256 false 0, .switchEdge 256, .pinSet (.vf 16) 0 0,
    .pinSet .pf0 16 0, .pinClr (.vf 16) 0 0, .pinClr .pf0 16 0, .pinTgl (.vf 16) 0 0, .pinTgl .pf0 16 0,
    .edgeCommit (.vf 16) 0, .timedEdgeApply 256, .pinLevelChange 256 false, .pinTpop (.vf 16) 0, .patternCommit (.vf 16) 0,
    .serialControlWrite (.vf 16) 0 0, .serialControlWrite .pf0 32 0, .serialByteWrite (.vf 16) 0 0, .serialByteWrite .pf0 32 0,
    .last (.vf 16) 0 0, .last .pf0 32 0, .start (.vf 16) 0 0, .start .pf0 32 0, .stop (.vf 16) 0 0, .stop .pf0 32 0,
    .readByte (.vf 16) 0 false, .readByte .pf0 32 false, .serialDataRead (.vf 16) 0, .serialDataRead .pf0 32,
    .serialByteReceived 32 0 false, .serialByteSent 32 false, .eventRaise 2048, .eventDelivery 2048, .evtClr (.vf 16) 0,
    .evtRteWrite (.vf 16) 0 0, .evtRteWrite .pf0 2048 0, .doze (.vf 16), .sleep (.vf 16), .deep (.vf 16), .cancelOrWake (.vf 16)] : List Instr).all
      (fun i => !i.wf) = true := by decide

theorem test_wf_refuses_6 : ([
    .avsSetpoint 65536, .wakePin 256, .pwrPadRelease (.vf 16) 0, .pwrReset (.vf 16) 0, .pwrPrst (.vf 16) 0,
    .dbgCcmd (.vf 16) 0, .dbgRdat (.vf 16) 0, .go (.vf 16), .clr (.vf 16), .openSession (.vf 16), .freeze (.vf 16) 0,
    .freezeEdge 17, .release (.vf 16) 0, .resumeEdge 17, .dbgPrgn (.vf 16) 0, .dbgPlineWrite (.vf 16) 0 0,
    .dbgPlineWrite .pf0 64 0, .quotaCommit (.vf 16) 0 0, .quotaCommit .pf0 16 0, .csmaAttempt 192 .good,
    .configurationSpaceWrite 16 (.busMaster true), .configurationSpaceWrite 0 (.numVFs 16),
    .configurationSpaceWrite 0 (.msixMask 2048 true), .configurationSpaceWrite 0 (.msixEntry 2048 0 0),
    .configurationSpaceWrite 0 (.maxPayload 100), .configurationSpaceWrite 0 (.maxReadRequest 0)] : List Instr).all
      (fun i => !i.wf) = true := by decide

theorem test_wf_accepts_1 : ([
    .registerWrite .pf0 0 0 0, .hiWrite .pf0 0 0, .framedWrite .pf0 0 0, .cancel .pf0, .registerAbort .pf0 0 false 0,
    .prtCtlLock .pf0, .prtRgnWrite .pf0 0 0, .brgGateWrite .pf0 0 0, .mailboxSelect .pf0 0, .mailboxSnapshot .pf0,
    .mailboxAbort .pf0, .mbxD7Read .pf0, .sideWrite 0 0, .sideRead 0, .sideStream 0 [], .extest [], .samplePreload [],
    .access 0 none, .portARead 0 false 0, .portAWrite 0 false 0 0, .accAdd 0 0 0 none, .accLoad 0 0 0 none,
    .accClear 0 0 0 none, .ldk 0 0 0 none, .direct 0 0 none, .portBRequest 0 0 0 (.read 1), .portBService 0,
    .bankHandover .pf0 0 0, .bankFillDone 0, .startSide .pf0, .cfgFdatWrite .pf0 0, .abort .pf0, .swap (.desc 0),
    .swapCancel (.desc 0), .clear (.desc 0), .swapEdge 0 0, .drainDeadline 0, .configScrubRead [] [], .systimeLoad .pf0 0,
    .timCtlWrite .pf0 0, .timFlenWrite .pf0 0, .timHlenWrite .pf0 0, .timArangeWrite .pf0 0 0, .almanacEntryWrite .pf0 0,
    .afile 0, .afileDone 0, .copyPage (.desc 0), .pageCopyDone 0, .flip (.desc 0), .flipCheckDone 0, .flipCancel (.desc 0),
    .dramRefresh 0, .queueConfig .pf0 0, .submission goodSub, .spillReturn 0 [], .cellDelivery 0, .late 0 0, .dbcnt 0 0,
    .fspEntryRead 0, .fspCompletionWord 0] : List Instr).all Instr.wf = true := by decide +kernel

theorem test_wf_accepts_2 : ([
    .fspRingEnable .pf0 0 0, .fspOwnerWrite .pf0 0 0, .migrate (.desc 0), .sqDoorbell 0 0 0 0, .cqDoorbell 0 0 0 0,
    .ringConfig .pf0 0, .descriptorFetch 0 none, .xfer 0, .rxbuf 0, .load 0 [], .jdrain 0, .copy 0, .copyStart 0, .unit 0,
    .descInvalid 0, .msixCoalesce 0, .hcapChange 1 1, .flr 0, .segCtlWrite .pf0 0 0, .beacon 0, .beaconReceived 0,
    .beaconerr 0, .toTimer 0, .transmitOpportunity 0 .good, .segFrameReceived 0 .badFcs, .rosterCommit .pf0 0, .nodeAbsent 0 0,
    .slotBlockReceived 0 0 0 0, .linkCellReceived 0 0 (List.replicate 256 0), .linkEnable .pf0 0 0, .linkDisable .pf0 0 0,
    .laneLock 0, .hello 0 0, .ack 0 0, .ready 0 0, .handshakeTimeout 0, .absent 0, .retrain 0, .lockReturn 0, .retryTimer 0,
    .dramTraining 0 none, .dramRequest 0 0 0 (.read 1), .dramCompletion 0 0 [], .windowFill .pf0 0 0, .fillDone 0,
    .scrubVisit 0 [] false, .memLogpop .pf0 0, .bnkRetire .pf0 0, .memRetire .pf0 0, .hartLoad 0 0 0 4 false,
    .hartStore 0 0 4 0, .storeDrain 0, .fence 0 0 false, .fenceI 0, .lr 0 0 0, .sc 0 0 0 0 false, .amo 0 0 .add 0 0 false,
    .wfi 0, .hartTrap 0 false 0 0, .hartRun .pf0 0 0] : List Instr).all Instr.wf = true := by decide +kernel

theorem test_wf_accepts_3 : ([
    .rst .pf0 0 0, .evtClaim .pf0 0, .pinConfigWrite .pf0 0 false 0, .switchEdge 0, .pinSet .pf0 0 0, .pinClr .pf0 0 0,
    .pinTgl .pf0 0 0, .edgeCommit .pf0 0, .timedEdgeApply 0, .pinLevelChange 0 false, .pinTpop .pf0 0, .patternCommit .pf0 0,
    .serialControlWrite .pf0 0 0, .serialByteWrite .pf0 0 0, .last .pf0 0 0, .start .pf0 0 0, .stop .pf0 0 0,
    .readByte .pf0 0 false, .serialDataRead .pf0 0, .serialByteReceived 0 0 false, .serialByteSent 0 false, .eventRaise 0,
    .eventDelivery 0, .evtClr .pf0 0, .evtRteWrite .pf0 0 0, .doze .pf0, .sleep .pf0, .deep .pf0, .cancelOrWake .pf0,
    .avsSetpoint 0, .wakePin 0, .pwrPadRelease .pf0 0, .pwrReset .pf0 0, .pwrPrst .pf0 0, .dbgCcmd .pf0 0, .dbgRdat .pf0 0,
    .go .pf0, .clr .pf0, .openSession .pf0, .freeze .pf0 0, .freezeEdge 0, .release .pf0 0, .resumeEdge 0, .dbgPrgn .pf0 0,
    .dbgPlineWrite .pf0 0 0, .quotaCommit .pf0 0 0, .csmaAttempt 0 .good, .configurationSpaceWrite 0 (.busMaster true)] : List Instr).all Instr.wf = true := by decide +kernel

/-! Small steps, with the values of the manual's worked cases. -/

/-- Reset, as chapter 17 leaves it: M1, the queue empty, nothing pending. -/
theorem test_reset : State.reset.mode = .m1 ∧ State.reset.pending = [] ∧ State.reset.jrn.intake = [] := by decide +kernel

theorem test_step_idles : step State.reset = .next State.reset := rfl

theorem test_step_runs_front :
    step { State.reset with pending := [.sideStatus, .tapReset] } = exec .sideStatus { State.reset with pending := [.tapReset] } := rfl

/-- No row of the command table has bits. -/
theorem test_no_word (n w : Nat) : decodeTableWord n w = none ∧ State.reset.withFetchWord n w = State.reset := ⟨rfl, rfl⟩

/-- R189: a reading of 500 ns first occurs at cycle 300 of the slot (chapter 19, worked case). -/
theorem test_systime_reading :
    sysNow { State.reset with clk := { k := 300 } } = 500 ∧ sysNow { State.reset with clk := { k := 299 } } = 498 := by
  decide +kernel

/-- BNK_TDM401 = 0x3633: slots 0, 1 and 3 name AH1 (3), slot 2 names QE (6) (chapter 6, worked case). -/
theorem test_bank_wheel :
    let s : State := { regs := [(0x32000 + 4 * 401, 0x3633)] }
    (List.range 4).map (slotMaster s 401) = [3, 3, 6, 3] := by decide +kernel

/-- A port B store of 0x1122_3344 at 0x00FF, then a port A write of 0xBEEF at 0x0100: R112 and Table 6-3. -/
theorem test_bank_stores :
    let s : State := { clk := { started := true } }
    let t := (portBAccess s 401 0x00FF 3 (.write [0x44, 0x33, 0x22, 0x11])).2.2
    ((bankBytes t 401 0x00FF 4).map (·.2.1) = [0x44, 0x33, 0x22, 0x11])
      ∧ (bankBytes (portAWrite t 401 true 0x0100 0xBEEF) 401 0x00FF 4).map (·.2.1) = [0x44, 0xEF, 0xBE, 0x11] := by
  decide +kernel

/-- TIM_ARANGE1 = 0x0201 is entries 4,096 to 6,143 (chapter 9, worked case). -/
theorem test_arange : arange { regs := [(0x50104, 0x0201)] } 1 = (4096, 2048) := by decide +kernel

/-- QE_QRANGE1 = 0x0101 holds QIDs 0x0_1000 to 0x0_1FFF (chapter 10, worked case). -/
theorem test_qrange :
    qrange { regs := [(0x40104, 0x0101)] } 1 = (0x1000, 0x2000) ∧ ownsQid { regs := [(0x40104, 0x0101)] } 1 0x1A10 = true := by
  decide +kernel

/-- VF1's local ring pair 44 is global pair 300; the doorbell 0x0259_0001 moves the SQ tail from 62 to index 1 of
generation 1 (chapter 11, worked case). -/
theorem test_doorbell :
    let r : Ring := { cfg := BitVec.ofNat 192 (2 ^ 191 + 2 * 2 ^ 172 + 3 * 2 ^ 168), state := .running, sqHead := 62, sqTail := 62 }
    let s : State := { regs := [(0x20004, 0x0003)], host := { rate := 5, numVFs := 15, rings := [(300, r)] } }
    (ringOf (doorbell s 300 0x02590001) 300).sqTail = 65 := by decide +kernel

/-- W = 20 + 4 × (32 + 8 × 84) = 2,836 bit times (chapter 12, worked case). -/
theorem test_cycle_bound :
    let e (n : Nat) : Nat × BitVec 128 := (64 * 14 + n, BitVec.ofNat 128 (2 ^ 127 + n * 2 ^ 120 + 84 * 2 ^ 80))
    cycleBound { regs := [(0x60400 + 56, 0x8300), (0x60C00 + 56, 84)], roster := [e 1, e 2, e 3] } 14 = 2836 := by decide +kernel

/-- A 60-byte frame has a wire size of 84 bytes. -/
theorem test_wire_size : wireSize 60 = 84 ∧ wireSize 500 = 524 := by decide

/-- DRAM offset 0x20_8012_3440 lies in window 130 (chapter 14, worked case). -/
theorem test_window : dramWindow 0x2080123440 = 130 := by decide

/-- A SEALED unit with step words 0 to 2 complete and 11 tokens left: LC_STATE = 0x31AC; with word 5 burnt too, 0x31A8
(chapter 18, worked case). -/
theorem test_lc_state :
    let s (n : Nat) : State := { lc := { state := .sealed, steps := [(0, 0xFFFF), (1, 0xFFFF), (2, 0xFFFF)]
                                         tokens := (List.range n).map fun k => (k, 0xFFFF) } }
    lcStateWord (s 5) = 0x31AC ∧ lcStateWord (s 6) = 0x31A8 ∧ tokenWord (s 5) = some 5 := by decide +kernel

/-- P3's quota BASE 0x100, SIZE 0x040; OFFSET 0x0002_3000 is sector 49,187 (chapter 20, worked case). -/
theorem test_quota :
    let s : State := { regs := [(0x90018, 0x0100), (0x9001C, 0x0040)] }
    areaOf s 3 0 = (0x0C000000, 0x400000) ∧ ((areaOf s 3 0).1 + 0x23000) / 4096 = 49187 := by decide +kernel

/-- An IDCODE read, an unknown side-port operation and a lost supply each answer a next state from reset. -/
theorem test_answers :
    ∃ a b c, exec .idcode State.reset = .next a ∧ exec (.sideUnknownOp 0x7F) State.reset = .next b
      ∧ exec .supplyLoss State.reset = .next c := ⟨_, _, _, rfl, rfl, rfl⟩

/-- AES-256 of a block of zeros under a key of zeros (NIST, CAVP). -/
theorem test_aes : aesBlock (List.replicate 32 0) 0 = 0xdc95c078a2408989ad48a21492842087 := by decide +kernel

/-- AES-256-GCM test cases 13 and 14 of the GCM specification: tags over no text, and over one block of text. -/
theorem test_gcm :
    gcmTag (List.replicate 32 0) 0 [] [] = beBytes 16 0x530f8afbc74536b9a963b4f1c4cb738b
      ∧ gcmTag (List.replicate 32 0) 0 [] (beBytes 16 0xcea7403d4d606b6e074ec5d3baf39d18)
        = beBytes 16 0xd0d1c8a799996bf0265b98b5d48ab919 := by decide +kernel

/-- SHA-384 of "abc" (FIPS 180-4's example). -/
theorem test_sha : beVal (sha384 [0x61, 0x62, 0x63]) = 0xcb00753f45a35e8bb5a03d699ac65007272c32ab0eded1631a8b605a43ff5bed8086072ba1e7cc2358baeca134c825a7 := by
  decide +kernel

/-- WFI, LW x1, 0(x2), C.LI a0, 0 and the all-zero halfword, which is illegal (RISC-V, Volume I). -/
theorem test_rv_words :
    decodeRv 0x10500073 = (some .wfi, 4) ∧ decodeRv 0x00012083 = (some (.load 1 2 0 4 true), 4)
      ∧ decodeRv 0x4501 = (some (.alu .add 10 0 (.imm 0)), 2) ∧ (decodeRv 0).1 = none := by decide +kernel

/-- Step 1 of entry waits for an edge of CLK_F8, and M7 is reached at it (Table 17-3). -/
theorem test_entry_m7 :
    let s : State := { State.reset with mode := .m5, pwr := { entry := some .m7, entryStep := 1 } }
    (entryTick { s with clk := { started := true, f1 := 8 } }).mode = .m7
      ∧ (entryTick { s with clk := { started := true, f1 := 7 } }).mode = .m5 := by decide +kernel

/-- A group released at F1 edge 5 holds its pads until edge 8 (R369). -/
theorem test_pad_release :
    let s : State := { State.reset with mode := .m5, pwr := { held := 3, releasing := 1 } }
    (padsFreed { s with clk := { started := true, f1 := 8 } }).pwr.held = 2
      ∧ (padsFreed { s with clk := { started := true, f1 := 7 } }).pwr.held = 3 := by decide +kernel

/-- A machine in M5 with its clocks running. -/
def up : State := { mode := .m5, clk := { started := true } }

/-- The same with a debug session, so that the side port and JTAG see everything. -/
def upSession : State := { up with lc := { opened := true } }

/-- A hypothesis of the statements, computed. -/
def takesB (s : State) (v : View) (reg : Reg) (i val : Nat) : Bool :=
  s.clk.started && s.mode.busUp && s.jrn.intake.isEmpty && s.jrn.waiting.isEmpty && s.jrn.missedCount == 0
    && !s.side.acc.inProgress && !s.tap.acc.inProgress
    && (!sinkOn s || (decide (shareUsed s (viewPart s v) + 1 < jrnShare s (viewPart s v))
      && (fullShares s).all fun q => s.jrn.full.contains q))
    && match regMap.find? (·.reg == reg) with
      | some r => decide (i < r.count) && visible s v r i && !readOnly s v r && (writeCheck s v r i val).isNone
        && !busAborts s v (r.off i)
      | none => false

theorem takes_of {s : State} {v : View} {reg : Reg} {i val : Nat} (h : takesB s v reg i val = true) :
    s.takes v reg i val := by
  unfold takesB at h
  simp only [Bool.and_eq_true, List.isEmpty_iff, beq_iff_eq, Bool.not_eq_true'] at h
  obtain ⟨⟨⟨⟨⟨⟨⟨⟨h1, h2⟩, h3⟩, h4⟩, h5⟩, h6⟩, h7⟩, h8⟩, h9⟩ := h
  refine ⟨⟨h1, h2, h3, h4, h5, h6, h7⟩, ?_, ?_⟩
  · simpa [State.room, Bool.or_eq_true, List.all_eq_true] using h8
  · split at h9
    · rename_i r hr
      simp only [Bool.and_eq_true, decide_eq_true_eq, Bool.not_eq_true', Option.isNone_iff_eq_none] at h9
      exact ⟨r, hr, h9.1.1.1.1, h9.1.1.1.2, h9.1.1.2, h9.1.2, h9.2⟩
    · cases h9

theorem quiet_of {s : State} {v : View} {reg : Reg} {i val : Nat} (h : takesB s v reg i val = true) :
    s.Quiet ∧ accepts s v reg i val := ⟨(takes_of h).1, (takes_of h).2.2⟩

theorem up_quiet : up.Quiet := ⟨rfl, rfl, rfl, rfl, rfl, rfl, rfl⟩

theorem up_memories : up.memoriesOk := ⟨⟨rfl, rfl⟩, ⟨rfl, by intro e h; cases h⟩, rfl⟩

theorem witness_StepRunsFrontCommand :
    ({ up with pending := [.supplyLoss, .rstN] } : State).pending = .supplyLoss :: [.rstN] ∧ up.pending = [] := ⟨rfl, rfl⟩

theorem witness_StepKeeps :
    up.memoriesOk ∧ up.enginesOk ∧ up.queueOk ∧ step up = .next up :=
  ⟨up_memories, ⟨⟨.inr (.inl rfl), by decide⟩, ⟨by decide, .inl rfl⟩, ⟨by decide, rfl⟩, ⟨by decide, rfl⟩, ⟨by decide, rfl⟩,
    ⟨by decide, rfl⟩⟩, (by intro i h; cases h), rfl⟩

theorem witness_ReservedLocations : up.Quiet ∧ findReg 0xFFFFC = none ∧ badHeader 0xFFFFC = false :=
  ⟨up_quiet, by decide +kernel⟩

theorem witness_TwoWordWrites :
    (up.Quiet ∧ ∃ r i stg, findReg 0x90000 = some (r, i, stg) ∧ r.half = .hi ∧ visible up .pf0 r i = true
      ∧ readOnly up .pf0 r = false ∧ busAborts up .pf0 0x90000 = false)
    ∧ (∃ r, regMap.find? (·.reg == .flsUqLo) = some r ∧ r.half = .lo ∧ journaling r 0x50010 = .write
      ∧ State.takes { up with hold := [(0x90000, 5)] } .pf0 .flsUqLo 0 0x50010
      ∧ 0x50010 = (holding { up with hold := [(0x90000, 5)] } .pf0 (r.off 0 - 4)).toNat * 65536 + 0x10 % 65536)
    ∧ (∃ r, regMap.find? (·.reg == .cfgSwpfrmLo) = some r ∧ r.half = .lo ∧ journaling r 7 = .none
      ∧ accepts up .pf0 .cfgSwpfrmLo 0 7) :=
  ⟨⟨up_quiet, _, _, _, rfl, by decide +kernel⟩,
    ⟨_, rfl, rfl, by decide +kernel, takes_of (by decide +kernel), by decide +kernel⟩,
    ⟨_, rfl, rfl, by decide +kernel, (takes_of (by decide +kernel)).2.2⟩⟩

/-- A fabric whose region 0 has frames of type 0 in tile column 0, every word the same: every X1 input selects the
constant 1. -/
def fab1 : Fabric := { active := { frames := (List.range 12).map fun f => (fkey 0 0 0 f, List.replicate 256 0x5151) } }

theorem witness_FlipFlops :
    let s : State := { up with fab := fab1, clk := { started := true, f1 := 1 } }
    edgeDue s = true ∧ 0 ∈ runningRegions s ∧ badBits s (fkey 0 0 0 8) 0 16 = false ∧ ctrlOf s.fab.active 0 0 0 0 = 0x5151 ∧ domPeriod (fld 0x5151 15 14) = 2
      ∧ (s.clk.f1 + 1) % 2 = 0 ∧ sig s 0 0 (.x1 0 7) 0 2 = some true ∧ sig s 0 0 (.x1 0 6) 0 2 = some true
      ∧ (if (0x5151).testBit 7 then sig s 0 0 (.x1 0 5) 0 2 else sig s 0 0 (.z 0 0 0) 0 2) = some false
      ∧ ∀ g, g < 4 → (hartOf s g).state = .off ∧ (hartOf s g).store = [] := by
  decide +kernel

theorem witness_CompletedSteps :
    State.lc { up with lc := { burn := some (.step 2 3), state := .shipped } } = { burn := some (.step 2 3), state := .shipped }
      ∧ stepOf 3 = some .seal_ ∧ stepTo .seal_ .shipped = some .sealed := by decide +kernel

/-- A hart at the start of bank 0, with a store in its buffer or none, whose next 32-bit word has been fetched. -/
def hart (st : HartState) (store : List SEntry) (word : BitVec 32) : State :=
  { up with hart0 := { state := st, store := store, pc := 0x40000000, prefetch := [(0x40000000, some word)] } }

theorem witness_WaitForInterrupt :
    (hartDoes (hart .run [⟨0x40000000, [1], none⟩] 0x10500073) 0 .wfi = true
      ∧ (hartOf (hart .run [⟨0x40000000, [1], none⟩] 0) 0).store ≠ [])
    ∧ (hartDoes (hart .run [] 0x10500073) 0 .wfi = true ∧ (hartOf (hart .run [] 0) 0).store = [])
    ∧ (let s : State := { up with hart0 := { state := .wfi } }
       (hartOf s 0).state = .wfi ∧ edgeDue s = true ∧ hartRuns s 0 = true ∧ (hartOf s 0).store = [] ∧ (hartOf s 0).wait = none
         ∧ (hartOf s 0).prefetch = [] ∧ ∀ g, g < 4 → g ≠ 0 → (hartOf s g).state = .off ∧ (hartOf s g).store = []) := by
  decide +kernel

/-- A write that a statement assumes to be accepted. -/
abbrev Write := State × View × Reg × Nat × Nat

/-- Every write of a list is accepted with room for its record. -/
def TakesAll (l : List Write) : Prop := ∀ x ∈ l, State.takes x.1 x.2.1 x.2.2.1 x.2.2.2.1 x.2.2.2.2

theorem takes_all {l : List Write} (h : l.all (fun x => takesB x.1 x.2.1 x.2.2.1 x.2.2.2.1 x.2.2.2.2) = true) :
    TakesAll l := fun x hx => takes_of (List.all_eq_true.mp h x hx)

/-- A machine in a mode. -/
def inMode (m : Mode) : State := { up with mode := m }

theorem witness_Resets :
    TakesAll [(up, .pf0, .pwrReset, 0, 0x5E7A)] ∧ up.mode ≠ .m9 ∧ up.mode ≠ .m0 ∧ monitored up 0 = true
      ∧ ({ up with pwr := { avs := some ⟨700, 1, .wakeM8⟩ } } : State).pwr.avs = some ⟨700, 1, .wakeM8⟩ :=
  ⟨takes_all (by decide +kernel), by decide +kernel⟩

theorem witness_ResetRelease :
    (State.reset.mode = .m1 ∧ State.reset.clk.started = false ∧ State.reset.pwr.thermHold = false ∧ State.reset.lc.burn = none)
    ∧ decodeSteps State.reset [] = .raw ∧ decodeSteps State.reset [3] = .lost
    ∧ decodeSteps { State.reset with lc := { steps := [(31, 0xFFFF)] } } [] = .scrap
    ∧ (let s : State := { up with ldr := { fallbackDue := true } }
       s.ldr.fallbackDue = true ∧ slotEmpty s 2 = true)
    ∧ (let s : State := { up with ldr := { fallbackDue := true }, flash := { data := [(0x05800000, 0x19)] } }
       s.ldr.fallbackDue = true ∧ slotEmpty s 2 = false)
    ∧ slotEmpty State.reset 1 = true ∧ slotEmpty { State.reset with flash := { data := [(0, 0x19)] } } 1 = false := by
  decide +kernel

theorem witness_ReferenceFaults :
    up.clk.started = true ∧ up.mode.busUp = true ∧ ({ up with clk := { started := true, refFault := true } } : State).clk.refFault = true
    ∧ (let s : State := { up with regs := [(0x50000, 0x4000)], timeSrc := some 0
                                  clk := { started := true, oos := true, streak := 1000 } }
       isFollower s = true ∧ s.clk.oos = true ∧ s.timeSrc.isSome = true ∧ 1000 ≤ s.clk.streak)
    ∧ isFollower up = false := by decide +kernel

/-- A machine whose low-power entry began at F1 edge 0 and has taken steps of Table 17-3. -/
def entering (m : Mode) (step f1 : Nat) : State :=
  { up with clk := { started := true, f1 := f1 }, pwr := { entry := some m, entryStep := step } }

theorem witness_LowPower :
    TakesAll [(up, .pf0, .pwrMode, 0, 7), (up, .pf0, .pwrMode, 0, 8), (up, .pf0, .pwrMode, 0, 9), (up, .pf0, .pwrMode, 0, 5),
      (inMode .m7, .pf0, .pwrMode, 0, 5), (up, .pf0, .pwrPadRelease, 0, 1)]
    ∧ (let s : State := { up with pwr := { target := 8, waiting := true } }
       s.mode = .m5 ∧ s.pwr.waiting = true ∧ hartsWait s = true ∧ s.jrn.intake = [] ∧ s.jrn.waiting = [] ∧ s.jrn.missedCount = 0)
    ∧ (let s := entering .m7 1 7
       s.pwr.entry = some .m7 ∧ s.mode = .m5 ∧ edgeDue s = true ∧ s.pwr.entryStep = 1 ∧ (s.clk.f1 + 1) % 8 = 0)
    ∧ (let s := entering .m9 1 6
       s.pwr.entry = some .m9 ∧ s.mode = .m5 ∧ edgeDue s = true ∧ s.pwr.entryStep = 1 ∧ (s.clk.f1 + 1) % 8 ≠ 0)
    ∧ (∀ x ∈ [(2, 5999), (3, 11999), (4, 14999)], let s := entering .m8 x.1 x.2
       s.pwr.entry = some .m8 ∧ s.mode = .m5 ∧ edgeDue s = true ∧ s.pwr.entryStep = x.1
         ∧ s.pwr.entryAt + (if x.1 = 2 then 6000 else if x.1 = 3 then 12000 else 15000) ≤ s.clk.f1 + 1)
    ∧ (∀ x ∈ [(3, 11998), (4, 14998)], let s := entering .m9 x.1 x.2
       s.pwr.entry = some .m9 ∧ edgeDue s = true ∧ s.pwr.entryStep = x.1 ∧ s.clk.f1 + 1 < s.pwr.entryAt + 3000 * (x.1 + 1))
    ∧ (∀ n ∈ [6, 7], let s : State := { up with clk := { started := true, f1 := n }, pwr := { held := 1, releasing := 1 } }
       edgeDue s = true ∧ s.pwr.entry = none ∧ ((s.clk.f1 + 1) % 8 = 0 ↔ n = 7))
    ∧ up.pwr.avs = none ∧ up.pwr.entry = none
    ∧ (∀ p ∈ [13, 14, 15], asleep { inMode .m7 with regs := [(0xC0008, BitVec.ofNat 16 (2 ^ p))] } = true)
    ∧ (let s : State := { inMode .m7 with regs := [(0xC0008, 0x4000)]
                                          pins := { pin := [(0, { func := 7, cfg := 0x0B00 })], vstat := 1 } }
       asleep s = true ∧ bit (pwrWake s) 14 = true ∧ wakeMet s 0 (wakeMode s 0) = true ∧ s.pwr.wakeArmed = none)
    ∧ (let s : State := { inMode .m8 with regs := [(0xC0008, 0x4000)], pwr := { wakePins := [(3, 5)] } }
       asleep s = true ∧ bit (pwrWake s) 14 = true ∧ s.mode ≠ .m7 ∧ (3, 5) ∈ s.pwr.wakePins ∧ wakeMet s 3 5 = true)
    ∧ (let s : State := { inMode .m7 with regs := [(0xC0008, 0x2000), (0xC0010, 1)], clk := { started := true, f1 := 600000 } }
       (inMode .m8).clk.refAbsent = false ∧ s.mode = .m7 ∧ asleep s = true ∧ bit (pwrWake s) 13 = true ∧ pwrAlarm s ≠ 0 ∧ s.pwr.lowSince + pwrAlarm s * 600000 ≤ s.clk.f1)
    ∧ (let s : State := { inMode .m9 with pwr := { wakeArmed := some .pin, coreEn := false } }
       s.mode = .m9 ∧ s.pwr.coreEn = false ∧ s.pwr.entry = none ∧ s.pwr.wakeArmed = some .pin)
    ∧ ((inMode .m7).clk.f1 % 8 = 0 ∧ (inMode .m9).pwr.coreEn = true) :=
  ⟨takes_all (by decide +kernel), by decide +kernel⟩

/-- A load over the side port with these words of its image at hand. -/
def sideLoad (phase : LoadPhase) (pos len : Nat) (buf : List Word) : Load :=
  { newLoad 0x14 0 0 .side [] 0 with phase := phase, pos := pos, len := len, ksel := 7, buf := buf }

def loading (l : Load) : State := { up with ldr := { running := some l } }

theorem witness_LoadCommands :
    TakesAll [(upSession, .side, .cfgLdcmd, 0, 1), (loading (sideLoad .stream 32 27 []), .side, .cfgLdcmd, 0, 2),
      (loading (sideLoad .stream 32 27 []), .side, .cfgFdat, 0, 0xFFFF)]
    ∧ (sideLoad .stream 32 27 []).view = 0x14 ∧ pathCode (sideLoad .stream 32 27 []).path ≠ 0
    ∧ (sideLoad .stream 32 27 []).lastData + 60000000 ≤ ({ up with clk := { f1 := 60000000 } } : State).clk.f1
    ∧ (∀ m ∈ [Mode.m2, .m5], let s : State := { inMode m with ldr := { waiting := [sideLoad .header 0 0 []] } }
       s.ldr.running = none ∧ s.ldr.waiting = sideLoad .header 0 0 [] :: [] ∧ s.ldr.fallbackDue = false
         ∧ 16 ≤ (sideLoad .header 0 0 []).view) :=
  ⟨takes_all (by decide +kernel), by decide +kernel⟩

/-- A header of a plain development image of 27 words for P0. -/
def header : List Word :=
  [0x0C19, 0x5E9A, 1, 0, 0x9C19, 0x9C19, 0, 7, 0, 0, 27, 0] ++ List.replicate 20 0

/-- A load before a packet. -/
def atWords (len : Nat) (ws : List Word) (f : Load → Load) : State :=
  loading (f (sideLoad .stream 32 len (List.replicate 32 0 ++ ws)))

theorem atPacket {s : State} {l : Load} {kind : Packet} {n : Nat} {ws : List Word} (h1 : s.ldr.running = some l)
    (h2 : l.phase = .stream) (h3 : l.pos + n ≤ 32 + l.len) (h : Word) (h4 : imgReads s l l.pos 1 = some (some [h]))
    (h5 : packetOf (nthD 0 (clearWords s l l.pos [h]) 0).toNat = some (kind, n)) (raw : List Word)
    (h6 : imgReads s l (l.pos + 1) (n - 1) = some (some raw)) (h7 : clearWords s l (l.pos + 1) raw = ws) : AtPacket s l kind n ws :=
  ⟨h1, h2, h3, ⟨h, h4, h5⟩, ⟨raw, h6, h7⟩⟩

theorem witness_LoadPackets :
    (let l := sideLoad .header 0 0 header
     imgReads (loading l) l 0 32 = some (some header) ∧ headerFault { loading l with fab := {} } { l with device := true } header = none
       ∧ headerFault (loading l) l (0 :: header) = some lcFormat)
    ∧ AtPacket (atWords 27 [0x0000] id) (sideLoad .stream 32 27 (List.replicate 32 0 ++ [0x0000])) .nop 1 []
    ∧ AtPacket (atWords 27 [0x1101, 1, 2] id) (sideLoad .stream 32 27 (List.replicate 32 0 ++ [0x1101, 1, 2])) .fadr 3 [1, 2]
    ∧ (let ws : List Word := 1 :: List.replicate 23 0
       AtPacket (atWords 27 (0x1217 :: ws) id) (sideLoad .stream 32 27 (List.replicate 32 0 ++ 0x1217 :: ws)) .regmask 25 ws
         ∧ maskRegions ws = [0] ∧ regionPart up 0 = 0 ∧ (groupOf up 0 0).sched = none ∧ shadowOf up 0 = .idle)
    ∧ AtPacket (atWords 2 [0x1000, 3] id) (sideLoad .stream 32 2 (List.replicate 32 0 ++ [0x1000, 3])) .endPkt 2 [3] := by
  refine ⟨by decide +kernel, atPacket rfl rfl ?_ 0 ?_ ?_ [] ?_ ?_, atPacket rfl rfl ?_ 0x1101 ?_ ?_ [1, 2] ?_ ?_,
    ⟨atPacket rfl rfl ?_ 0x1217 ?_ ?_ (1 :: List.replicate 23 0) ?_ ?_, ?_⟩, atPacket rfl rfl ?_ 0x1000 ?_ ?_ [3] ?_ ?_⟩ <;>
    decide +kernel

theorem nthD_append {α : Type} (d w : α) (pre post : List α) : nthD d (pre ++ w :: post) pre.length = w := by
  induction pre with
  | nil => rfl
  | cons a pre ih => exact ih

theorem nthD_last (n : Nat) (c : Word) : nthD 0 (List.replicate n 0 ++ [c]) n = c := by
  have h := nthD_append (0 : Word) c (List.replicate n 0) []
  rw [List.length_replicate] at h
  exact h

/-- Words of a side-port image that have arrived. -/
theorem imgReads_buf (s : State) (l : Load) (h : l.path = .side) :
    ∀ (n : Nat) (pre ws post : List Word), ws.length = n → l.buf = pre ++ ws ++ post →
      imgReads s l pre.length n = some (some ws) := by
  intro n
  induction n with
  | zero => intro pre ws post hn _; rw [List.length_eq_zero_iff.mp hn]; rfl
  | succ n ih =>
    intro pre ws post hn hb
    match ws, hn with
    | w :: ws, hn =>
      have h1 : imgRead s l pre.length = .word w := by
        unfold imgRead
        rw [h]
        simp only
        rw [if_pos (by rw [hb]; simp)]
        congr 1
        rw [hb, List.append_assoc, List.cons_append]
        exact nthD_append 0 w pre _
      have h2 := ih (pre ++ [w]) ws post (by simpa using hn) (by rw [hb]; simp)
      rw [List.length_append, List.length_singleton] at h2
      rw [imgReads, h1]
      simp only [h2]

/-- A plain image is clear already. -/
theorem clearWords_plain (s : State) (l : Load) (h : l.ksel = 7) (i : Nat) (ws : List Word) : clearWords s l i ws = ws := by
  unfold clearWords clearWord
  simp only [h, if_true]
  exact List.map_fst_zip (by simp [upto])

/-- The stream of a frame of zeros with its CRC. -/
def frameWords : List Word := List.replicate 256 0 ++ [crc16 (bytesOf (List.replicate 256 0))]

def frameLoad (a : Nat) : Load :=
  { sideLoad .stream 32 300 (List.replicate 32 0 ++ [0x3000] ++ frameWords) with fadr := some a, regmask := some [0] }

theorem frame_packet (a : Nat) : AtPacket (loading (frameLoad a)) (frameLoad a) .frame 258 frameWords := by
  have h1 : imgReads (loading (frameLoad a)) (frameLoad a) 32 1 = some (some [0x3000]) :=
    imgReads_buf _ (frameLoad a) rfl 1 (List.replicate 32 0) [0x3000] frameWords rfl rfl
  have h2 : imgReads (loading (frameLoad a)) (frameLoad a) 33 257 = some (some frameWords) := by
    rw [show (33 : Nat) = (List.replicate 32 (0 : Word) ++ [0x3000]).length from rfl]
    exact imgReads_buf _ (frameLoad a) rfl _ _ frameWords []
      (by rw [frameWords, List.length_append, List.length_replicate]; rfl) (List.append_nil _).symm
  refine ⟨rfl, rfl, by show 32 + 258 ≤ 32 + 300; decide, ⟨0x3000, h1, ?_⟩, ⟨frameWords, h2, clearWords_plain _ _ rfl _ _⟩⟩
  rw [clearWords_plain _ _ rfl]
  decide +kernel

theorem witness_LoadFrames :
    (AtPacket (loading (frameLoad 0x80000000)) (frameLoad 0x80000000) .frame 258 frameWords
      ∧ AtPacket (loading (frameLoad 0x90000C00)) (frameLoad 0x90000C00) .frame 258 frameWords)
    ∧ crc16 (bytesOf (frameWords.take 256)) = nthD 0 frameWords 256
    ∧ (let l := frameLoad 0x80000000
       l.fadr = some 0x80000000 ∧ l.regmask = some [0] ∧ addressFault 0x80000000 = false ∧ 0 ∉ l.written ∧ fkRegion 0 ∈ [0]
         ∧ l.pers = 0 ∧ fkType 0 ≠ 1 ∧ badAddress 0 = false)
    ∧ (let l := { frameLoad 0x80000000 with written := [0] }
       contentsValid (storeFrame (freshRegion (loading (frameLoad 0x80000000)) (frameLoad 0x80000000) 0) l 0
          (frameWords.take 256) (nthD 0 frameWords 256)) l 0 = true)
    ∧ (let k := 0x90000C00 % 0x80000000
       addressFault 0x90000C00 = false ∧ k ∉ (frameLoad 0x90000C00).written ∧ fkRegion k ∈ [0] ∧ fkType k = 1
         ∧ bankTakesFrame (loading (frameLoad 0x90000C00)) k = true
         ∧ bankBusy (loading (frameLoad 0x90000C00)) (frameBank k) = false) := by
  have h3 : frameWords.take 256 = List.replicate 256 0 := List.take_left' List.length_replicate
  refine ⟨⟨frame_packet _, frame_packet _⟩, ?_, by decide +kernel, ?_, by decide +kernel⟩
  · rw [h3]; exact (nthD_last 256 _).symm
  · rw [h3]; decide +kernel

/-- The image of a passing load: zeros, and the AES-256-GCM tag of them under the zero key and a zero nonce. -/
def passImage : List Word :=
  List.replicate 59 0 ++ [0x9917, 0x1216, 0xA3E8, 0x77A8, 0x2657, 0x0DDA, 0x7658, 0x3F85]

theorem witness_LoadPasses :
    let l : Load := { sideLoad .checks 59 27 passImage with regmask := some [0] }
    (loading l).ldr.running = some l ∧ l.phase = .checks ∧ l.claim = []
      ∧ imgReads (loading l) l 0 (imgWords l.len l.sig) = some (some passImage) ∧ firstMissing l = none
      ∧ imageAuthentic (loading l) l passImage = true
      ∧ checkPlane (loading l) (([0].filter fun r => !(regionsWritten l).contains r).foldl clearRegion (planeAfter (loading l) [0]))
          [0] (configured (([0].filter fun r => !(regionsWritten l).contains r).foldl clearRegion (planeAfter (loading l) [0])))
          l.written l.pers = none := by
  decide +kernel

/-! Accesses. -/

/-- A partition-scope capture has frozen P0. -/
def frozenP0 : State := { up with cap := { scopes := [(0, .frozen 0)] } }

/-- A write or read of an offset finds its register, seen and writable as said, in a domain that runs or not. -/
def finds (s : State) (v : View) (off : Nat) (seen ro stopped : Bool) : Bool :=
  match findReg off with
  | some (r, i, _) => visible s v r i == seen && readOnly s v r == ro && domainStopped s r.reg.domain == stopped
      && (stopped || !busAborts s v off)
  | none => false

theorem witness_BusWrites :
    up.Quiet
    ∧ (findReg 0xFFFFC = none ∧ finds up .pf0 0x0 true true false = true ∧ finds up (.vf 1) 0x20000 false false false = true
      ∧ finds up .pf0 0x90000 true false false = true)
    ∧ (∃ r i stg, findReg 0x40 = some (r, i, stg) ∧ r.half = .hi)
    ∧ (∃ r i stg, findReg 0x44 = some (r, i, stg) ∧ visible up .pf0 r i = true ∧ readOnly up .pf0 r = false ∧ r.half ≠ .hi
      ∧ journaling r (fullValue up .pf0 r i 5) = .none ∧ busAborts up .pf0 0x44 = false
      ∧ writeCheck up .pf0 r i (fullValue up .pf0 r i 5) = none)
    ∧ (∃ r, regMap.find? (·.reg == .bnkTdm) = some r ∧ r.cls = .rwf ∧ 0x32000 + 4 * 1535 = r.off 1535)
    ∧ TakesAll [(up, .pf0, .bnkTdm, 1535, 0), (up, .pf0, .sysFwctl, 0, 0x4000)] :=
  ⟨up_quiet, by decide +kernel, ⟨_, _, _, rfl, by decide +kernel⟩, ⟨_, _, _, rfl, by decide +kernel⟩, ⟨_, rfl, by decide +kernel⟩,
    takes_all (by decide +kernel)⟩

theorem witness_JournaledWrites :
    TakesAll [(up, .pf0, .prtCtl, 0, 0x8000)] ∧ ∃ r, regMap.find? (·.reg == .prtCtl) = some r ∧ r.half ≠ .hi
      ∧ fullValue up .pf0 r 0 (BitVec.setWidth 16 (0x8000 : BitVec 32)) = 0x8000 ∧ journaling r 0x8000 = .write :=
  ⟨takes_all (by decide +kernel), _, rfl, by decide +kernel⟩

/-- The always-on registers cannot be reached while the reference is absent; a hart loads from one, or has a store to one
in its buffer. -/
def refGone (word : BitVec 32) (store : List SEntry) : State :=
  { upSession with clk := { started := true, refAbsent := true }
                   hart0 := { state := .run, store := store, pc := 0x40000000, prefetch := [(0x40000000, some word)]
                              x := [(2, 0x200C0018)] } }

theorem witness_RefusedAndAbortedAccesses :
    (let s : State := { up with regs := [(0x20000, 0x8000)] }
     s.jrn.intake = [] ∧ ∃ r, regMap.find? (·.reg == .prtEn) = some r ∧ 0 < r.count ∧ visible s .pf0 r 0 = true
       ∧ readOnly s .pf0 r = false ∧ r.half ≠ .hi ∧ writeCheck s .pf0 r 0 (fullValue s .pf0 r 0 3) = some stLocked ∧ r.jrn = true
       ∧ r.cls = .rwl ∧ busAborts s .pf0 (r.off 0) = false ∧ locked s = true)
    ∧ (∃ r, regMap.find? (·.reg == .dbgRdat) = some r ∧ r.jrn = false ∧ busAborts up .pf0 (r.off 0) = false
      ∧ writeCheck { up with lc := { rbuf := [(0, List.replicate 48 0)] } } .pf0 r 0 1 = some stInvalid)
    ∧ (∃ r i stg, findReg 0xC0018 = some (r, i, stg) ∧ domainStopped (refGone 0 []) r.reg.domain = true
      ∧ ∀ v ∈ [View.pf0, .side, .jtag, .hart 0], visible (refGone 0 []) v r i = true)
    ∧ (hartDoes (refGone 0x00012083 []) 0 (.load 1 0x200C0018 4 true) = true
      ∧ wordAddr 0x200C0018 = BitVec.ofNat 32 (0x20000000 + 0xC0018))
    ∧ (let s := refGone 0 [⟨0x200C0018, [1, 0, 0, 0], none⟩]
       (hartOf s 0).state = .run ∧ (hartOf s 0).store = [⟨0x200C0018, [1, 0, 0, 0], none⟩]) :=
  ⟨⟨rfl, _, rfl, by decide +kernel⟩, ⟨_, rfl, by decide +kernel⟩, ⟨_, _, _, rfl, by decide +kernel⟩, by decide +kernel⟩

theorem witness_MailboxSnapshots :
    (up.Quiet ∧ accepts up .pf0 .mbxSelLo 0 0xFFFF)
    ∧ (let s : State := { up with mbx := [(0, { busy := true })] }
       s.mode.busUp = true ∧ (mbxOf s .pf0).busy = true ∧ mailboxStopped s .pf0 = false ∧ readbackDeferred s .pf0 = false)
    ∧ (let s : State := { frozenP0 with mbx := [(0, { busy := true, sel := 0xA0000000 })]
                                        clk := { started := true, f1 := 2400 } }
       s.mode.busUp = true ∧ (mbxOf s .pf0).busy = true ∧ mailboxStopped s .pf0 = true
         ∧ (mbxOf s .pf0).since + 2400 ≤ s.clk.f1)
    ∧ (∃ r, regMap.find? (·.reg == .mbxD) = some r ∧ visible up .pf0 r 7 = true ∧ readsZero up .pf0 = false) :=
  ⟨quiet_of (by decide +kernel), by decide +kernel, by decide +kernel, ⟨_, rfl, by decide +kernel⟩⟩

theorem witness_SidePortOperations :
    up.Quiet ∧ (badHeader 0x100000 = true ∧ badHeader 2 = true ∧ badHeader 0xFFFFC = false ∧ busAborts up .side 0xFFFFC = false
      ∧ (0x03 : Byte) ∉ ([0x01, 0x02, 0x04, 0x05] : List Byte) ∧ findReg 0xFFFFC = none ∧ (List.replicate 17 (0 : Word)).length = 17
      ∧ finds up .side 0x20000 false false false = true)
    ∧ (∃ r, regMap.find? (·.reg == .dbgRdat) = some r ∧ r.reg = .dbgRdat ∧ r.half = .none ∧ r.jrn = false ∧ badHeader (r.off 0) = false
      ∧ (let s : State := { upSession with lc := { opened := true, rbuf := [(0x14, List.replicate 48 0)] } }
         visible s .side r 0 = true ∧ readOnly s .side r = false ∧ busAborts s .side (r.off 0) = false
           ∧ writeCheck s .side r 0 1 = some stInvalid))
    ∧ (∃ r, regMap.find? (·.reg == .prtCtl) = some r ∧ r.reg = .prtCtl ∧ r.half = .none ∧ journaling r 0x8000 = .write
      ∧ badHeader (r.off 0) = false)
    ∧ TakesAll [(upSession, .side, .prtCtl, 0, 0x8000)]
    ∧ (let a : PortAccess := { started := true, write := true, off := 0x20000, data := 0, status := 0, inProgress := true }
       let s : State := { up with side := { selected := true, acc := a } }
       s.side.acc.inProgress = true ∧ s.side.acc.write = true ∧ s.side.selected = true)
    ∧ (let l := sideLoad .stream 32 27 (List.replicate 2 0)
       (loading l).mode ≠ .m11 ∧ (loading l).ldr.running = some l ∧ l.path = .side ∧ l.buf.length + 10 ≤ 12) :=
  ⟨up_quiet, by decide +kernel, ⟨_, rfl, by decide +kernel⟩, ⟨_, rfl, by decide +kernel⟩, takes_all (by decide +kernel),
    by decide +kernel⟩

theorem witness_JtagInstructions :
    up.Quiet ∧ ((inMode .m2).mode.busUp = true ∧ (inMode .m2).mode = .m2 ∧ up.mode ≠ .m2 ∧ up.mode ≠ .m4 ∧ up.mode ≠ .m10
      ∧ (0xFF : Byte) ∉ ([0x00, 0x01, 0x02, 0x10] : List Byte) ∧ up.tap.ir ≠ 0x10)
    ∧ (let s : State := { inMode .m2 with pins := { vstat := 1 } }
       s.pwr.held.toNat.testBit (15 / 16) = false ∧ groupUp s (15 / 16) = true)
    ∧ (let dr : BitVec 48 := BitVec.ofNat 48 (2 ^ 46 + 0xFFFFC * 2 ^ 24)
       dr.getLsbD 46 = true ∧ dr.getLsbD 47 = false ∧ busAborts (up.scanned dr) .jtag (fld dr.toNat 43 24) = false)
    ∧ (let dr : BitVec 48 := BitVec.ofNat 48 (2 ^ 47 + 2 ^ 46 + 0x20000 * 2 ^ 24 + 0x8000 * 2 ^ 8)
       dr.getLsbD 46 = true ∧ dr.getLsbD 47 = true ∧ fld dr.toNat 43 24 = 0x20000 ∧ fld dr.toNat 23 8 = 0x8000
         ∧ finds (up.scanned dr) .jtag 0x20000 false false false = true)
    ∧ (∃ r, regMap.find? (·.reg == .prtCtl) = some r ∧ r.reg = .prtCtl ∧ r.off 0 = 0x20000 ∧ r.half = .none
      ∧ journaling r 0x8000 = .write)
    ∧ TakesAll [(upSession.scanned (BitVec.ofNat 48 (2 ^ 47 + 2 ^ 46 + 0x20000 * 2 ^ 24 + 0x8000 * 2 ^ 8)), .jtag, .prtCtl, 0, 0x8000)]
    ∧ (up.scanned (BitVec.ofNat 48 (2 ^ 46))).Quiet :=
  ⟨up_quiet, by decide +kernel, by decide +kernel, by decide +kernel, by decide +kernel, ⟨_, rfl, by decide +kernel⟩,
    takes_all (by decide +kernel), ⟨rfl, rfl, rfl, rfl, rfl, rfl, rfl⟩⟩

/-! Hard sites and banks. -/

/-- A field of nine bits repeated over a frame that starts at bit b of the sequence. -/
def packed9 (v b : Nat) : List Word :=
  (List.range 256).map fun w => BitVec.ofNat 16 (total ((List.range 16).map fun j => place (v.testBit ((b + 16 * w + j) % 9)) j))

/-- A memory site (tile 12) and a MAC site (tile 0) of region 0, enabled, in domain F1; every X2 output of tile 12 and
tile 0 selects the constant 1. -/
def siteFab (x2 : Bool) : Fabric :=
  { active := { frames :=
      (if x2 then [(fkey 0 0 12 10, packed9 353 0), (fkey 0 0 12 11, packed9 353 4096),
        (fkey 0 0 0 10, packed9 353 0), (fkey 0 0 0 11, packed9 353 4096)] else [])
      ++ [(fkey 2 0 0 0, 0x2000 :: List.replicate 255 0), (fkey 2 0 12 0, 0x2000 :: List.replicate 255 0)] } }

def site : State := { up with fab := siteFab false }
def siteOnes : State := { up with fab := siteFab true }

/-- The same with the constant 0 on the memory site's pins. -/
def siteZero : State :=
  { up with fab := { captured := [0], active := { frames :=
      [(fkey 0 0 12 10, packed9 352 0), (fkey 0 0 12 11, packed9 352 4096),
        (fkey 2 0 0 0, 0x2000 :: List.replicate 255 0), (fkey 2 0 12 0, 0x2000 :: List.replicate 255 0)] } } }

/-- An element without configuration drives itself: its output is undefined. -/
theorem loop_none (t cap : Nat) (h : ∀ k, x1Sel site.fab.active 0 t 0 k = 0) (hc : ctrlOf site.fab.active 0 t 0 0 = 0) :
    ∀ fuel, (evalNode site 0 t cap fuel (.out 0 0 0)).val = none ∧ (evalNode site 0 t cap fuel (.z 0 0 0)).val = none
      ∧ (evalNode site 0 t cap fuel (.x1 0 0)).val = none := by
  intro fuel
  induction fuel with
  | zero => exact ⟨rfl, rfl, rfl⟩
  | succ n ih =>
    refine ⟨?_, ?_, ?_⟩
    · unfold evalNode
      split
      · rfl
      · simp only [hc]
        exact ih.2.1
    · unfold evalNode
      split
      · rfl
      · simp only [hc]
        have h0 : (!bit 0 13) = true := by decide
        rw [if_pos h0]
        show Option.map _ (allTimed _).1 = none
        have : ∀ (x : Timed) (l : List Timed), x.val = none → (allTimed (x :: l)).1 = none := by
          intro x l hx
          simp [allTimed, allSig, hx]
        have e : (List.range 5).map (fun j => evalNode site 0 t cap n (.x1 0 (8 * 0 + j))) =
            evalNode site 0 t cap n (.x1 0 0) :: ((upto 1 4).map fun j => evalNode site 0 t cap n (.x1 0 (8 * 0 + j))) := rfl
        rw [e, List.cons_append, this _ _ ih.2.2]
        rfl
    · unfold evalNode
      split
      · rfl
      · simp only [h 0]
        exact ih.1

theorem witness_SiteCaptures :
    (siteCaptures site (0 / 4) (12 + 0 % 4) = true ∧ siteCaptures site 0 0 = true ∧ bankRetired site 0 = false
      ∧ bankBusy site 0 = false ∧ (cycleOf site 0).bWrote = [])
    ∧ (let s : State := { site with bank := { retired := [0] } }
       siteCaptures s 0 12 = true ∧ bankRetired s 0 = true)
    ∧ (let s : State := { site with bank := { fill := [(0, some ⟨0, none, 0⟩)] } }
       siteCaptures s 0 12 = true ∧ bankRetired s 0 = false ∧ bankBusy s 0 = true)
    ∧ (let s : State := { site with hart3 := { reservation := some 0x40000000 } }
       siteCaptures s 0 12 = true ∧ (hartOf s 3).reservation = some 0x40000000)
    ∧ (BitVec.ofNat 48 (2 ^ 32)).getLsbD 32 = true
    ∧ (siteCaptures siteOnes 0 12 = true ∧ sitePins siteOnes 0 12 = some (BitVec.ofNat 48 (2 ^ 34 - 1))
      ∧ (BitVec.ofNat 48 (2 ^ 34 - 1)).getLsbD 33 = true)
    ∧ (siteCaptures siteOnes 0 0 = true ∧ sitePins siteOnes 0 0 = some (BitVec.ofNat 48 (2 ^ 48 - 1)))
    ∧ (let n := 2 ^ 47; bit n 36 = false ∧ bit n 38 = false ∧ bit n 39 = false ∧ bit n 43 = false ∧ bit n 37 = false
        ∧ fld n 47 46 = 2) := by decide +kernel

/-- A bank of a master with one request of that master at its end, of which one byte is uncorrectable or none. -/
def bankReq (m : Nat) (acc : Acc) (bad : List Nat) : State :=
  { up with bank := { master := [(0, m)], waiting := [(0, [⟨0, m, 0, 0x7FFC, acc⟩])], data := [(0x7FFC, 1)],
                      chk := ([0x7FFC, 0x7FFD, 0x7FFE, 0x7FFF].filter fun a => !bad.contains a).map fun a => (a, .good) } }

/-- What a statement assumes of a port B service. -/
def served (s : State) (m : Nat) (acc : Acc) : Bool :=
  !(cycleOf s 0).bUsed && (cycleOf s 0).aWrote.isEmpty && portBChoice s 0 == some (⟨0, m, 0, 0x7FFC, acc⟩, [])
    && (tget [] s.bank.waiting 0).all (fun q => hasSlot s 0 q.master) && (portBRefusal s 0 m 0 acc).isNone

theorem witness_PortBAccesses :
    (let s : State := { up with bank := { master := [(0, 2)] } }
     bankOf 0x40007FFF = some (0, 0x7FFF) ∧ portBRefusal s 0 2 0 (.read 4) = none ∧ accWrites (.write [1]) = true
       ∧ bankMaster s 0 ≠ 3)
    ∧ bankRetired { up with bank := { master := [(0, 2)], retired := [0] } } 0 = true
    ∧ (let b : State := { up with bank := { master := [(0, 2)], fill := [(0, some ⟨2, none, 0⟩)] } }
       bankRetired b 0 = false ∧ 0 = bankPart b 0 ∧ bankMaster b 0 = 2 ∧ bankBusy b 0 = true)
    ∧ (let s := bankReq 6 (.read 4) []
       served s 6 (.read 4) = true ∧ scLost s ⟨0, 6, 0, 0x7FFC, .read 4⟩ = false
         ∧ ∀ e ∈ bankBytes s 0 0x7FFC 4, e.2.2 = .good)
    ∧ (let s := bankReq 6 (.read 4) [0x7FFF]
       served s 6 (.read 4) = true ∧ ∃ e ∈ bankBytes s 0 0x7FFC 4, e.2.2 = .ue)
    ∧ (let s : State := { bankReq 2 (.read 4) [] with hart0 := { wait := some (.load 1 4 true true 0) } }
       served s 2 (.read 4) = true ∧ scLost s ⟨0, 2, 0, 0x7FFC, .read 4⟩ = false
         ∧ (hartOf s 0).wait = some (.load 1 4 true true 0) ∧ ∀ e ∈ bankBytes s 0 0x7FFC 4, e.2.2 = .good)
    ∧ (let s := bankReq 6 (.write [1, 2]) []
       served s 6 (.write [1, 2]) = true ∧ scLost s ⟨0, 6, 0, 0x7FFC, .write [1, 2]⟩ = false)
    ∧ (∀ n ∈ [0, 1], let r : Option (BitVec 32) := if n = 0 then some 0x40007FFC else none
       let s : State := { bankReq 2 (.write [1, 2, 3, 4]) [] with hart0 := { wait := some (.sc 1 0), reservation := r } }
       served s 2 (.write [1, 2, 3, 4]) = true ∧ (hartOf s 0).wait = some (.sc 1 0)
         ∧ scLost s ⟨0, 2, 0, 0x7FFC, .write [1, 2, 3, 4]⟩ = r.isNone)
    ∧ (let s := bankReq 6 (.amo 0 5) []
       served s 6 (.amo 0 5) = true ∧ scLost s ⟨0, 6, 0, 0x7FFC, .amo 0 5⟩ = false ∧ 0x7FFC % 4 = 0
         ∧ ∀ e ∈ bankBytes s 0 0x7FFC 4, e.2.2 = .good) := by decide +kernel

theorem witness_BankHandover :
    TakesAll [(up, .pf0, .bnkOwn, 1535, 0x0100), (up, .pf0, .bnkOwn, 1535, 0x0180)]
    ∧ (0x0100 : Word).getLsbD 7 = false ∧ (0x0180 : Word).getLsbD 7 = true ∧ bankFill up 0 = none
    ∧ (∀ f ∈ [BFill.mk 2 none 0, ⟨0, some 1, 0⟩], let s : State := { up with bank := { fill := [(0, some f)] } }
       bankFill s 0 = some f ∧ wipeDeferred s 0 f = false)
    ∧ (let s : State := { up with bank := { fill := [(0, some ⟨2, none, 0⟩)] }
                                  mbx := [(0, { busy := true, sel := 0xE8000601 })] }
       bankFill s 0 = some ⟨2, none, 0⟩ ∧ wipeDeferred s 0 ⟨2, none, 0⟩ = true) :=
  ⟨takes_all (by decide +kernel), by decide +kernel⟩

theorem witness_PartitionRegistersAndRetirement :
    TakesAll [(up, .pf0, .prtCtl, 0, 0x8000), (up, .pf0, .prtRgn, 95, 0x4321), (up, .pf0, .brgGate, 63, 0x1000),
      (up, .pf0, .qeFspown, 63, 0x4321), (up, .pf0, .bnkRetire, 0, 1535), (up, .pf0, .flsUqLo, 0, 0x7FF0001)]
    ∧ TakesAll [({ up with dram := { ch0 := { ready := true, gib := 1 } } }, .pf0, .memRetireLo, 0, 5),
      ({ up with dram := { ch0 := { ready := true, gib := 1 }, retiredPages := [5] } }, .pf0, .memRetireLo, 0, 5)]
    ∧ 5 ∉ up.dram.retiredPages
    ∧ quotaOf up 0 = (0, 2048) ∧ accepts up .pf0 .memLogpop 0 3 :=
  ⟨takes_all (by decide +kernel), takes_all (by decide +kernel), by decide +kernel, by decide +kernel,
    (quiet_of (by decide +kernel)).2⟩

theorem allSig_none (f : Nat → Sig) (h : f 0 = none) (n : Nat) : allSig ((List.range (n + 1)).map f) = none := by
  rw [List.range_succ_eq_map, List.map_cons, h]
  rfl

theorem sig_none {s : State} {r t : Nat} {n : Node} {period : Nat} (h : ∀ fuel, (evalNode s r t period fuel n).val = none)
    (route : Nat) : sig s r t n route period = none := by
  unfold sig
  generalize tileFuel = k
  have := h k
  show (if _ then _ else _) = _
  split
  · rfl
  · exact this

/-- IN of a site behind such an element is undefined. -/
theorem site_undefined (t : Nat) (hx : x2Sel site.fab.active 0 t 832 = 0) (he : exportSel site.fab.active 0 t 0 0 = 0)
    (hc : ctrlOf site.fab.active 0 t 0 0 = 0) (hg : tget [] site.fab.active.frames (fkey 0 0 t 4) = []) :
    sitePins site 0 t = none := by
  have h1 : ∀ k, x1Sel site.fab.active 0 t 0 k = 0 := by
    intro k
    unfold x1Sel byteSel fword
    rw [hg]
    split <;> simp [nthD]
  have hv : ∀ cap fuel, (evalNode site 0 t cap fuel (.x2 832)).val = none := by
    intro cap fuel
    cases fuel with
    | zero => rfl
    | succ n =>
      unfold evalNode
      split
      · rfl
      · simp only [hx]
        rw [if_pos (by decide)]
        simp only [he]
        rw [if_pos (by decide)]
        exact (loop_none t cap h1 hc n).1
  unfold sitePins
  split
  · rfl
  · have hn : sitePinCount t = sitePinCount t - 1 + 1 := by unfold sitePinCount; split <;> rfl
    rw [hn, allSig_none (fun i => sig site 0 t (.x2 (832 + i)) 390 (domPeriod (siteDom site.fab.active 0 t))) (sig_none (hv _) _)]
    rfl

theorem witness_SiteCaptures_undefined : sitePins site 0 0 = none ∧ sitePins site 0 12 = none := by
  constructor <;> apply site_undefined <;> decide +kernel

/-! Partitions, groups, time, Almanac, queues. -/

theorem witness_PartitionReset :
    TakesAll [(up, .pf0, .pwrPrst, 0, 1), (up, .pf0, .pwrPrst, 0, 0)] ∧ (1 : Word).getLsbD 0 = true
      ∧ (0 : Word).getLsbD 0 = false ∧ hartPart up 0 = 0
      ∧ hartPart { up with regs := [(0xF0004, 3)] } 1 ≠ 0 ∧ ringPart 255 = 0 ∧ up.ldr.running = none
      ∧ 0 ∈ configured fab1.active ∧ regionPart { up with fab := fab1 } 0 = 0
      ∧ regionPart { up with regs := [(0x20100, 0x0010)] } (8192 / 8192) ≠ 0 :=
  ⟨takes_all (by decide +kernel), by decide +kernel⟩

/-- A descriptor from its fields: first byte and value. -/
def desc (fs : List (Nat × Nat)) : BitVec 256 := BitVec.ofNat 256 (total (fs.map fun f => f.2 * 2 ^ (8 * f.1)))

/-- A machine whose ring pair has a fetched descriptor. -/
def offering (s : State) (g : Nat) (d : BitVec 256) : State :=
  { s with host := { s.host with rings := [(g, { state := .running, fetched := [d], reserved := 2 })] } }

theorem offers_of (s : State) (g : Nat) (d : BitVec 256) (h : g < deadRing) : (offering s g d).offers g d [] :=
  ⟨h, by simp [offering, ringOf, tget], fun e he => by cases he⟩

/-- A group with one staged region. -/
def staged : State :=
  { up with fab := { shadowState := [(0, .staged 0)], shadow := { frames := [(fkey 2 0 0 0, [1])] } } }

/-- The same SCHEDULED for a boundary. -/
def swapping (b : Nat) (released : Bool) : State :=
  { staged with swp := { groups := [(0, { sched := some ⟨true, 4, b, none, released⟩ })] } }

/-- A queue entry of the intake that asks for a swap. -/
def swapEntry : JEntry := ⟨engRec 2 0 0 0x06 stOk 4 0 1, 1, true, 2, [.swap 0 0 true 4 1000000 none (some .pf0)]⟩

theorem witness_SwapRequests :
    (∀ x ∈ [(up, 0x6000), (staged, 0x6000)], x.1.Quiet ∧ accepts x.1 .pf0 .cfgSwpcmd 0 x.2)
    ∧ fld 0x6000 15 14 = 1 ∧ swapCheck up 0 (swpcmdAsk up .pf0 0x6000) = .inl 1
    ∧ swapCheck staged 0 (swpcmdAsk staged .pf0 0x6000) = .inr 250000
    ∧ (let d := desc [(0, 4), (2, 7), (4, 0x21)]
       (offering up 4095 d).offers 4095 d [] ∧ descGood d = true ∧ dOp d = 4 ∧ fld (dBytes d 4 1) 1 0 = 1
       ∧ swapCheck (offering up 0 d) 0 ⟨1, 0, false, true, 0, some (0, 7), none⟩ = .inl 1
       ∧ swapCheck (offering staged 0 d) 0 ⟨1, 0, false, true, 0, some (0, 7), none⟩ = .inr 250000)
    ∧ (∀ regs ∈ [[], [(0xE0000, (0x8000 : Word)), (0xE0100, 1)]],
        let s : State := { staged with jrn := { intake := [swapEntry] }, regs := regs }
        writerRuns s = true ∧ s.jrn.intake = [swapEntry] ∧ s.jrn.waiting = [] ∧ s.jrn.missedCount = 0)
    ∧ swapEntry.refusable = true ∧ swapEntry.need = 2
    ∧ sinkOn { staged with regs := [(0xE0000, (0 : Word))] } = false
    ∧ (let s : State := { staged with regs := [(0xE0000, (0x8000 : Word)), (0xE0100, 1)] }
       sinkOn s = true ∧ jrnShare s 0 < shareUsed s 0 + 2)
    ∧ TakesAll [(swapping 1000000 false, .pf0, .cfgSwpcmd, 0, 0x8000), (staged, .pf0, .cfgSwpcmd, 0, 0xC000)]
    ∧ (let d := desc [(0, 4), (4, 2)]
       (offering (swapping 1000000 false) 0 d).offers 0 d [] ∧ descGood d = true ∧ dOp d = 4 ∧ fld (dBytes d 4 1) 1 0 = 2
       ∧ swapCancellable (offering (swapping 1001 false) 0 d) 0 0 = true
       ∧ swapCancellable (offering (swapping 1000 false) 0 d) 0 0 = false)
    ∧ (let d := desc [(0, 4), (4, 3)]
       (offering staged 0 d).offers 0 d [] ∧ descGood d = true ∧ dOp d = 4 ∧ fld (dBytes d 4 1) 1 0 = 3
       ∧ clearRefusal (offering staged 0 d) 0 0 = none ∧ clearRefusal (offering (swapping 0 false) 0 d) 0 0 = some stBusy) := by
  refine ⟨?_, by decide +kernel, by decide +kernel, by decide +kernel, ⟨offers_of _ _ _ (by decide), by decide +kernel⟩,
    by decide +kernel, by decide, by decide, by decide +kernel, by decide +kernel, takes_all (by decide +kernel),
    ⟨offers_of _ _ _ (by decide), by decide +kernel⟩, ⟨offers_of _ _ _ (by decide), by decide +kernel⟩⟩
  intro x hx
  simp only [List.mem_cons, List.not_mem_nil, or_false] at hx
  obtain rfl | rfl := hx <;> exact quiet_of (by decide +kernel)

/-- A machine whose scrub stands before the first frame of region 0: the planes hold these words in it, with these
CRCs. -/
def scrubbing (a b : List Word) (ca cb : Word) (st : Tbl Shadow) : State :=
  { up with clk := { started := true, f1 := 7200 }
            fab := { active := { frames := [(nthD 0 (scrubKeys 0) 0, a)], crcs := [(nthD 0 (scrubKeys 0) 0, ca)] }
                     shadow := { frames := [(nthD 0 (scrubKeys 0) 0, b)], crcs := [(nthD 0 (scrubKeys 0) 0, cb)] }
                     shadowState := st } }

/-- The CRC of a frame that begins with a word. -/
def crcOf (w : Word) : Word := crc16 (bytesOf (w :: List.replicate 255 0))

/-- A plane with one frame. -/
def onePlane (w c : Word) : Plane := { frames := [(nthD 0 (scrubKeys 0) 0, [w])], crcs := [(nthD 0 (scrubKeys 0) 0, c)] }

theorem good_one (w : Word) {p : Plane} (h : p = onePlane w (crcOf w)) : frameGood p (nthD 0 (scrubKeys 0) 0) = true := by
  subst h
  unfold frameGood
  have h1 : Machine.frameWords (onePlane w (crcOf w)) (nthD 0 (scrubKeys 0) 0) = w :: List.replicate 255 0 := by
    have h0 : tget [] (onePlane w (crcOf w)).frames (nthD 0 (scrubKeys 0) 0) = [w] := if_pos rfl
    unfold Machine.frameWords
    rw [h0]
    rfl
  have h2 : tget 0 (onePlane w (crcOf w)).crcs (nthD 0 (scrubKeys 0) 0) = crcOf w := if_pos rfl
  rw [h1, h2]
  exact beq_self_eq_true _

theorem bad_one (w : Word) {p : Plane} (h : p = onePlane w (crcOf w + 1)) : frameGood p (nthD 0 (scrubKeys 0) 0) = false := by
  subst h
  unfold frameGood
  have h1 : Machine.frameWords (onePlane w (crcOf w + 1)) (nthD 0 (scrubKeys 0) 0) = w :: List.replicate 255 0 := by
    have h0 : tget [] (onePlane w (crcOf w + 1)).frames (nthD 0 (scrubKeys 0) 0) = [w] := if_pos rfl
    unfold Machine.frameWords
    rw [h0]
    rfl
  have h2 : tget 0 (onePlane w (crcOf w + 1)).crcs (nthD 0 (scrubKeys 0) 0) = crcOf w + 1 := if_pos rfl
  rw [h1, h2]
  have : ∀ c : Word, (c == c + 1) = false := by intro c; simp
  exact this _

theorem flip_none (ws : List Word) : flipBits ws [] = ws := by
  simp [flipBits]

theorem crc_wrong (w : Word) {p : Plane} (h : p = onePlane w (crcOf w + 1)) :
    crc16 (bytesOf (flipBits (Machine.frameWords p (nthD 0 (scrubKeys 0) 0)) [])) ≠ tget 0 p.crcs (nthD 0 (scrubKeys 0) 0) := by
  rw [flip_none]
  have := bad_one w h
  unfold frameGood at this
  intro e
  rw [e, beq_self_eq_true] at this
  cases this

/-- What ConfigScrub assumes of every case. -/
def scrubReads (s : State) : Bool :=
  bit (dev s 0x10120 0x800C).toNat 15 && s.clk.started && s.mode.busUp && decide (s.swp.scrubAt + scrubPeriod s ≤ s.clk.f1)
    && scrubRegion s (s.swp.scrubPos / 256) == some 0 && s.swp.scrubPos / 256 == 0
    && decide (s.swp.scrubPos % 256 < (scrubKeys 0).length) && fkRegion (nthD 0 (scrubKeys 0) (s.swp.scrubPos % 256)) == 0
    && s.swp.scrubPos % 256 == 0 && !swapNear s 0 && !frozen s (regionPart s 0)
    && tget [] s.fab.unrep (nthD 0 (scrubKeys 0) 0) == []

theorem witness_SwapEdges :
    (let s : State := { swapping 250000 true with clk := { started := true, f1 := 8 }
                                                  fab := { staged.fab with active := fab1.active } }
     swapEdgeDue s ⟨true, 4, 250000, none, true⟩ = true ∧ (groupOf s 0 0).sched = some ⟨true, 4, 250000, none, true⟩
       ∧ userRuns s 0 = true ∧ s.pwr.entry = none ∧ userRuns { s with mode := .m7 } 0 = false ∧ 0 ∈ groupRegions s 0 0
       ∧ fkRegion (fkey 2 0 0 0) ∈ groupRegions s 0 0 ∧ fkRegion (fkey 2 1 0 0) ∉ groupRegions s 0 0
       ∧ (blank s.fab.active 0 = false ∧ fkRegion (fkey 2 0 0 0) = 0 ∧ tget [] s.fab.shadow.frames (fkey 2 0 0 0) ≠ [])
       ∧ 8191 / 8192 = 0 ∧ 8192 / 8192 ∉ groupRegions s 0 0)
    ∧ swapEdgeDue { swapping 250000 true with clk := { started := true, f1 := 7 } } ⟨true, 4, 250000, none, true⟩ = false
    ∧ (let s : State := { up with qe := { queues := [(9, { old := some ⟨false, 0, 456, 0⟩ })] } }
       (queueOf s 9).old = some ⟨false, 0, 456, 0⟩ ∧ 0 ≤ sysNow s)
    ∧ (let s := scrubbing [1] [1] (crcOf 1) (crcOf 1) []
       scrubReads s = true ∧ frameGood s.fab.active (nthD 0 (scrubKeys 0) 0) = true ∧ shadowOf s 0 = .idle ∧ 4095 < 4096
         ∧ Machine.frameWords s.fab.shadow (nthD 0 (scrubKeys 0) 0) = Machine.frameWords s.fab.active (nthD 0 (scrubKeys 0) 0))
    ∧ (let s := scrubbing [1] [2] (crcOf 1) (crcOf 2) [(0, .staged 0)]
       scrubReads s = true ∧ frameGood s.fab.active (nthD 0 (scrubKeys 0) 0) = true ∧ shadowOf s 0 ≠ .idle)
    ∧ (let s := scrubbing [1] [2] (crcOf 1) (crcOf 2) []
       scrubReads s = true ∧ frameGood s.fab.active (nthD 0 (scrubKeys 0) 0) = true ∧ shadowOf s 0 = .idle
         ∧ Machine.frameWords s.fab.shadow (nthD 0 (scrubKeys 0) 0) ≠ Machine.frameWords s.fab.active (nthD 0 (scrubKeys 0) 0))
    ∧ (let s := scrubbing [1] [2] (crcOf 1 + 1) (crcOf 2) []
       scrubReads s = true ∧ crc16 (bytesOf (flipBits (Machine.frameWords s.fab.active (nthD 0 (scrubKeys 0) 0)) []))
           ≠ tget 0 s.fab.active.crcs (nthD 0 (scrubKeys 0) 0) ∧ shadowOf s 0 = .idle
         ∧ frameGood s.fab.shadow (nthD 0 (scrubKeys 0) 0) = true)
    ∧ (let s := scrubbing [1] [2] (crcOf 1 + 1) (crcOf 2 + 1) []
       scrubReads s = true ∧ crc16 (bytesOf (flipBits (Machine.frameWords s.fab.active (nthD 0 (scrubKeys 0) 0)) []))
           ≠ tget 0 s.fab.active.crcs (nthD 0 (scrubKeys 0) 0) ∧ frameGood s.fab.shadow (nthD 0 (scrubKeys 0) 0) = false
         ∧ tget 0 s.fab.fromSlot 0 = 0) := by
  refine ⟨by decide +kernel, by decide +kernel, by decide +kernel, ⟨by decide +kernel, good_one _ rfl, by decide +kernel⟩,
    ⟨by decide +kernel, good_one _ rfl, by decide +kernel⟩, ⟨by decide +kernel, good_one _ rfl, by decide +kernel⟩,
    ⟨by decide +kernel, crc_wrong _ rfl, by decide +kernel, good_one _ rfl⟩,
    ⟨by decide +kernel, crc_wrong _ rfl, bad_one _ rfl, by decide +kernel⟩⟩

/-- A follower with an average phase. -/
def follower (e : Int) : State :=
  { up with regs := [(0x50000, 0x4000)], timeSrc := some 0, link := [(0, { epsHist := [e] })]
            clk := { started := true, k := 600 } }

theorem witness_SlotsAndFrames :
    slotDue up = false ∧ slotDue { up with clk := { started := true, k := 600 } } = true
    ∧ slotDue { up with clk := { started := true, k := 600, ldsec := some 7 } } = true
    ∧ isFollower up = false
    ∧ (∀ e ∈ [(-834 : Int), -833, 833, 834], slotDue (follower e) = true ∧ isFollower (follower e) = true
      ∧ epsilon (follower e) = some e)
    ∧ runActive { follower 0 with regs := [(0x50000, 0xC000)] } = true
    ∧ (let s : State := { follower 0 with link := [(0, { slotSys := some 5000 })] }
       slotDue s = true ∧ s.clk.ldsec = none ∧ isFollower s = true ∧ runActive s = false ∧ s.timeSrc = some 0
         ∧ (linkOf s 0).slotSys = some 5000)
    ∧ up.clk.boundaryDue = false ∧ (∀ e ∈ up.qe.queues, ∀ e' ∈ up.qe.queues, e.1 = e'.1 → e = e')
    ∧ (let s : State := { up with clk := { started := true, boundaryDue := true, systime := 500000 }
                                  framed := [⟨.pf0, 0x50000, 0x8000⟩]
                                  swp := { groups := [(0, { sched := some ⟨true, 2, 500000, none, false⟩ })] } }
       s.clk.boundaryDue = true ∧ s.framed = [⟨.pf0, 0x50000, 0x8000⟩]
         ∧ (groupOf s 0 0).sched = some ⟨true, 2, 500000, none, false⟩ ∧ 500000 ≤ s.clk.systime
         ∧ frameRaw s s.clk.systime % hlen s = 0
         ∧ ∀ e ∈ s.swp.groups, ∀ e' ∈ s.swp.groups, e.1 = e'.1 → e = e')
    ∧ (let s : State := { up with clk := { started := true, boundaryDue := true, systime := 500000 }, regs := [(0x50000, 0x8000)]
                                  alm := { parts := [(15, { flip := some ⟨true, 0, some 500000, false, none, none⟩ })] } }
       s.clk.boundaryDue = true ∧ s.framed = [] ∧ runActive s = true
         ∧ (almOf s 15).flip = some ⟨true, 0, some 500000, false, none, none⟩ ∧ (∀ k, k < 8 → (linkOf s k).upAfter = none))
    ∧ (let s : State := { up with clk := { started := true, boundaryDue := true }, framed := [⟨.pf0, 0x32000 + 4 * 1535, 0x1234⟩] }
       s.clk.boundaryDue = true ∧ s.framed = [⟨.pf0, 0x32000 + 4 * 1535, 0x1234⟩]) := by
  refine ⟨by decide +kernel, by decide +kernel, by decide +kernel, rfl, by decide +kernel, by decide +kernel,
    by decide +kernel, rfl, (fun _ h => nomatch h), ⟨rfl, rfl, rfl, by decide, by decide +kernel, ?_⟩, by decide +kernel⟩
  intro e he e' he' _
  simp only [List.mem_singleton] at he he'
  rw [he, he']

theorem witness_TimeRegisters :
    TakesAll [(up, .pf0, .timLdsecLo, 0, 5), (up, .pf0, .timCtl, 0, 0xA000), (up, .pf0, .timFlen, 0, 100),
      (up, .pf0, .timHlen, 0, 0x0FFF), (up, .pf0, .timArange, 0, 0x0040), (up, .pf0, .timArange, 15, 0)]
    ∧ 5 = (holding up .pf0 0x50010).toNat * 65536 + (5 : Word).toNat
    ∧ entryOwnerOf up 5 = some 0 ∧ entryOwnerOf { up with regs := [(0x50100, 0)] } 5 = none :=
  ⟨takes_all (by decide +kernel), by decide +kernel⟩

/-- P0 with a flip or with an edit in its inactive page. -/
def flipping (f : Flip) : State := { up with alm := { parts := [(0, { flip := some f })] } }
def editing (b : AlmBusy) : State := { up with alm := { parts := [(0, { busy := some b })] } }

/-- A flip whose check runs. -/
def checking (next : Bool) (frame : Nat) : Flip := ⟨next, frame, none, false, some .pf0, none⟩

/-- s with RUN. -/
def runOn (s : State) : State := { s with regs := [(0x50000, 0x8000)] }

/-- The same with an entry of a KIND that Table 9-2 does not list in the inactive page. -/
def badPage : Almanac :=
  { parts := [(0, { flip := some (checking true 0) })], entries := [(pageSize, BitVec.ofNat 128 (15 * 2 ^ 124))] }

theorem witness_AlmanacPages :
    TakesAll [(up, .pf0, .timAidxLo, 0, 5), (up, .pf0, .timPgcmd, 0, 0xC000),
      (runOn (flipping ⟨true, 0, some 1001, false, some .pf0, none⟩), .pf0, .timPgcmd, 0, 0x8000)]
    ∧ 5 = (holding up .pf0 0x50620).toNat * 65536 + (5 : Word).toNat
    ∧ (∀ n ∈ [0, 48], let d := desc [(0, 5), (4, n), (24, 0x1000)]
       descGood d = true ∧ dOp d = 5 ∧ dBytes d 4 4 = n ∧ almBusy (offering up 0 d) 0 = false
         ∧ almBusy (offering (editing (.copy none)) 0 d) 0 = true)
    ∧ (offering up 0 (desc [(0, 5), (4, 48)])).offers 0 (desc [(0, 5), (4, 48)]) []
    ∧ (almOf (editing (.bulk 4095 7 0x1000 48 (some [1]) 9 true)) 0).busy = some (.bulk 4095 7 0x1000 48 (some [1]) 9 true)
    ∧ 0 < (arange up 0).2
    ∧ (let d := desc [(0, 6), (4, 3)]
       descGood d = true ∧ dOp d = 6 ∧ fld (dBytes d 4 1) 1 0 = 3 ∧ (offering up 0 d).offers 0 d [])
    ∧ (almOf (editing (.copy (some (4095, 7)))) 0).busy = some (.copy (some (4095, 7)))
    ∧ (almOf (editing (.copy none)) 0).busy = some (.copy none)
    ∧ (up.Quiet ∧ accepts up .pf0 .timPgcmd 0 0x6000) ∧ fld 0x6000 15 14 = 1
    ∧ (accepts (runOn (editing (.copy none))) .pf0 .timPgcmd 0 0x6000 ∧ almBusy (runOn (editing (.copy none))) 0 = true)
    ∧ (let d := desc [(0, 6), (4, 0x21)]
       descGood d = true ∧ dOp d = 6 ∧ fld (dBytes d 4 1) 1 0 = 1 ∧ bit (dBytes d 4 1) 5 = true ∧ (offering up 0 d).offers 0 d [])
    ∧ (let d := desc [(0, 6), (4, 2)]
       descGood d = true ∧ dOp d = 6 ∧ fld (dBytes d 4 1) 1 0 = 2 ∧ (offering up 0 d).offers 0 d []
         ∧ flipCancellable (flipping ⟨true, 0, some 1001, false, none, none⟩) 0 = true
         ∧ flipCancellable (flipping ⟨true, 0, some 1000, false, none, none⟩) 0 = false)
    ∧ ((almOf (flipping (checking true 0)) 0).flip = some (checking true 0)
      ∧ checkPage { up with alm := badPage } 0 = some (2, 0))
    ∧ (checkPage (runOn (flipping (checking false 0))) 0 = none ∧ runActive (runOn (flipping (checking false 0))) = true
      ∧ targetBoundary (runOn (flipping (checking false 0))) false 0 = none)
    ∧ targetBoundary (runOn (flipping (checking true 0))) true 0 = some 250000
    ∧ (checkPage (flipping (checking true 0)) 0 = none ∧ runActive (flipping (checking true 0)) = false)
    ∧ (checkPage (flipping (checking false 0)) 0 = none ∧ runActive (flipping (checking false 0)) = false) := by
  refine ⟨takes_all (by decide +kernel), by decide +kernel, by decide +kernel, offers_of _ _ _ (by decide), by decide +kernel,
    by decide +kernel, ⟨by decide +kernel, by decide +kernel, by decide +kernel, offers_of _ _ _ (by decide)⟩, by decide +kernel,
    by decide +kernel, quiet_of (by decide +kernel), by decide +kernel,
    ⟨(quiet_of (by decide +kernel)).2, by decide +kernel⟩,
    ⟨by decide +kernel, by decide +kernel, by decide +kernel, by decide +kernel, offers_of _ _ _ (by decide)⟩,
    ⟨by decide +kernel, by decide +kernel, by decide +kernel, offers_of _ _ _ (by decide), by decide +kernel, by decide +kernel⟩,
    by decide +kernel⟩

/-! Queues, delivery, the host interface. -/

/-- A queue's configuration: class, egress, depth 64 cells, LEAD 1, BURST 8. -/
def qc (cls egress : Nat) : BitVec 96 := BitVec.ofNat 96 (64 * 2 ^ 64 + 8 * 2 ^ 32 + 2 ^ 24 + cls * 2 ^ 16 + egress)

/-- A submission of P0 to queue 9 from ring pair 0. -/
def sub9 (legs : Word) (len : Nat) : Submission := ⟨.ring 0 7, 0, 9, legs, len, 0, 0x1000, []⟩

/-- An undecided transfer of it. -/
def xfer9 (legs : Word) (und : List Nat) : Xfer :=
  { tid := 3, sub := sub9 legs 299, undecided := und, legs := [], refusals := [], charge := .none, data := none
    srcFail := none, decided := false }

/-- A machine with queue 9 of a class on link 0, an Almanac entry of the queue, RUN, and one transfer whose operation
started 32 F1 cycles ago or has not started. -/
def queued (cls : Nat) (ops : List EnqOp) (x : Xfer) : State :=
  { up with regs := [(0x50000, 0x8000)], clk := { started := true, f1 := 32 }
            qe := { queues := [(9, { cfg := qc cls 192 })], xfers := [x], nextTid := 4, ops := ops }
            alm := { entries := [(0, BitVec.ofNat 128 (2 ^ 124 + 10 * 2 ^ 96 + 5 * 2 ^ 80 + 192 * 2 ^ 64 + 2 ^ 40 + 9))] } }

theorem witness_QueueAdmission :
    TakesAll [(up, .pf0, .qeQselLo, 0, 9),
      ({ up with vregs := [(0x40200, 192), (0x40204, 2), (0x40208, 8), (0x40210, 64)] }, .pf0, .qeQselLo, 0, 0xFFFFF)]
    ∧ qClass (qcfgWords { up with vregs := [(0x40200, 192), (0x40204, 2), (0x40208, 8), (0x40210, 64)] } .pf0) = 2
    ∧ (up.mode.busUp = true ∧ coreRuns up = true ∧ up.qe.ops = [] ∧ nextOperation up = none ∧ coreRuns State.reset = false)
    ∧ (∀ und ∈ [[0], [0, 15]],
      (let s := queued 0 [] (xfer9 1 und)
       coreRuns s = true ∧ s.qe.ops = [] ∧ s.qe.started ≠ s.clk.f1 + 1 ∧ nextOperation s = some ⟨3, 0, 32⟩)
      ∧ (∀ c ∈ [0, 1, 2], let s := queued c [⟨3, 0, 0⟩] (xfer9 1 und)
         coreRuns s = true ∧ s.qe.ops = [⟨3, 0, 0⟩] ∧ passed s 0 32 = true ∧ s.qe.xfers = [xfer9 1 und] ∧ 0 ∈ (xfer9 1 und).undecided
           ∧ (queueOf s 9).bad = false ∧ swapAhead s 9 = none)
      ∧ decideLeg (queued 0 [⟨3, 0, 0⟩] (xfer9 1 und)) (xfer9 1 und) 0 = .refuse stRefused 2
      ∧ decideLeg (queued 2 [⟨3, 0, 0⟩] (xfer9 1 und)) (xfer9 1 und) 0 = .accept [] .shaped 0
      ∧ decideLeg (queued 1 [⟨3, 0, 0⟩] (xfer9 1 und)) (xfer9 1 und) 0
          = .accept [⟨10000, 11000, 0, false⟩, ⟨11000, 12000, 0, false⟩] .promised 0)
    ∧ (∀ y ∈ (queued 0 [] (xfer9 1 [0])).qe.xfers, y.tid = (xfer9 1 [0]).tid → y = xfer9 1 [0])
    ∧ (ownsQid up 1 9 = false ∧ ownsQid up 0 9 = true ∧ enabled up 0 = true ∧ qClass (qcfg up 9) = 0)
    ∧ (let s : State := { up with regs := [(0x40104, 0xFFFF)] }
       ownsQid s 1 0xFF000 = true ∧ enabled s 1 = false)
    ∧ ({ xfer9 0 [0] with sub := { sub9 0 299 with src := .fsp 255 0, limit := 7 } } : Xfer).sub.limit ≠ 0
    ∧ book (queued 1 [] (xfer9 1 [0])) 0 9 299 = .ok [⟨10000, 11000, 0, false⟩, ⟨11000, 12000, 0, false⟩] := by
  refine ⟨takes_all (by decide +kernel), by decide +kernel, by decide +kernel, by decide +kernel, ?_, by decide +kernel⟩
  intro y hy _
  simpa [queued] using hy

/-- A leg of queue 9 on an egress. -/
def leg9 (cls egress left : Nat) (booked : List Booking) (ending : LegEnd) : Leg :=
  { idx := 0, qid := 9, cls := cls, egress := egress, epoch := 0, left := left, booked := booked, promise := 0, tag := 5
    lateact := false, retry := 0, facts := [], attempts := 0, rxbuf := none, ending := ending }

/-- A decided transfer with it, its data at hand. -/
def going (src : SubSrc) (legs : Word) (l : Leg) : Xfer :=
  { tid := 3, sub := { sub9 legs 299 with src := src }, undecided := [], legs := [l], refusals := [], charge := .none
    data := some [1], srcFail := none, decided := true }

/-- A machine with one transfer, the host reached, link 0 UP, FSP 0 READY. -/
def delivering (x : Xfer) : State :=
  { up with regs := [(0x70100, 0x8000)], link := [(0, { state := .up })]
            qe := { queues := [(9, { tokens := 5000 })], xfers := [x], nextTid := 4 }
            host := { rate := 5, width := 8, hcap := 96, fns := [(0, { bme := true, unmasked := [0] })]
                      rings := [(0, { state := .running, rx := [⟨0x1000, 2, 7⟩] })] } }

/-- An FSP ring in bank 0 that has announced an entry. -/
def fspRing : State :=
  { up with regs := [(0x41000, 0x8000)], bank := { master := [(0, 6)] }, qe := { fsp := [(0, { unread := 1, cpl := [0x5000] })] } }

/-- The bytes of an FSP entry for queue 9, whose last byte is given. -/
def entryBytes (last : Byte) : List Byte := [9, 0, 0, 0, 0, 0, 43, 1, 0, 0, 0, 0, 0, 0, 0, last]

theorem witness_FspRings :
    TakesAll [(up, .pf0, .qeFspb, 255, 0x85FF), (fspRing, .pf0, .qeFspb, 0, 0x8000)]
    ∧ (let l := leg9 3 192 2 [] .running
     let x : Xfer := { going (.ring 0 7) 0 l with charge := .shaped, spill := [(1, 0x1000)] }
     let s : State := { delivering x with
       dram := { ch0 := { ready := true, gib := 1 }, blk := (upto 0x40 4).map fun b => (b, .good) } }
     coreRuns s = true ∧ shapedHeld s 0 < squota s 0 ∧ spilledCell s 0 = some x ∧ x.spill = (1, 0x1000) :: []
       ∧ dramRefusal s x.sub.part 0x1000 (.read 256) = none ∧ (dramAccess s 0x1000 6 (.read 256) []).1 = 0)
    ∧ (spilledCell up 0 = none ∧ coreRuns up = true)
    ∧ (fspCounts fspRing 0 = true ∧ fspCounts up 255 = false)
    ∧ (let s := fspRing
       fspEn s 0 = true ∧ (fspOf s 0).unread > 0 ∧ (fspOf s 0).reader = none ∧ fspIn s 0 3 = false ∧ userRuns s (fspPart s 0) = true
         ∧ 0 = fld (fspB s 0) 10 0 ∧ portBRefusal s 0 6 (fspPart s 0) (.read 4) = none)
    ∧ (∀ last ∈ [(0 : Byte), 1], let w := fun i => leVal (((entryBytes last).drop (2 * i)).take 2)
       w 1 < 16 ∧ w 6 = 0 ∧ w 7 = 256 * last.toNat)
    ∧ ((fspOf fspRing 0).cpl = 0x5000 :: [] ∧ (fspOf fspRing 0).speaking = false ∧ userRuns fspRing (fspPart fspRing 0) = true)
    ∧ (fspOf up 255).cpl = []
    ∧ ((0x85FF : Word).getLsbD 15 = true ∧ bit (fspB fspRing 0) 15 = true ∧ bit (fspB up 255) 15 = false) :=
  ⟨takes_all (by decide +kernel), by decide +kernel⟩

/-- What CellDelivery assumes of a cell. -/
def cellGoes (x : Xfer) (l : Leg) (kind : Nat) : Bool :=
  let s := delivering x
  decide (192 ≤ l.egress) && decide (s.clk.k < s.clk.slotLen) && !s.clk.boundaryDue && nextCell s l.egress == some (x, l, kind)
    && x.legs == [l] && decide (l.left > 0)

/-- The same with FSP 0 READY: region 0's first edge-out bit names signal 1152. -/
def fspDelivering (x : Xfer) : State :=
  { delivering x with
    clk := { started := true, k := 128 }
    fab := { active := { frames := [(fkey 4 0 0 0, List.replicate 64 0 ++ [0x8480])] }, x5out := [(0, true)] } }

theorem witness_CellDelivery :
    (nextCell up 192 = none ∧ egressOf 192 = some (.link 0) ∧ egressOf 456 = some (.host 0) ∧ egressOf 200 = some (.fsp 0))
    ∧ (let l := leg9 3 192 2 [] .running
       cellGoes { going (.ring 0 7) 0 l with bad := [0] } l 2 = true ∧ 0 ∈ ({ going (.ring 0 7) 0 l with bad := [0] } : Xfer).bad)
    ∧ cellGoes (going (.ring 0 7) 0 (leg9 3 192 2 [] .running)) (leg9 3 192 2 [] .running) 2 = true
    ∧ cellGoes (going (.ring 0 7) 0 (leg9 2 192 1 [] .running)) (leg9 2 192 1 [] .running) 2 = true
    ∧ cellGoes (going (.ring 0 7) 0 (leg9 1 192 2 [⟨0, 1000, 0, false⟩, ⟨1000, 2000, 0, false⟩] .running))
        (leg9 1 192 2 [⟨0, 1000, 0, false⟩, ⟨1000, 2000, 0, false⟩] .running) 0 = true
    ∧ (let l := { leg9 1 192 1 [] (.late .medium) with lateact := true }
       cellGoes (going (.ring 0 7) 0 l) l 2 = true)
    ∧ cellGoes (going (.ring 0 7) 0 (leg9 3 456 2 [] .running)) (leg9 3 456 2 [] .running) 2 = true
    ∧ (let l := { leg9 3 456 1 [] .running with rxbuf := some ⟨0x1000, 2, 7⟩ }
       cellGoes (going (.ring 0 7) 0 l) l 2 = true)
    ∧ (let l := leg9 1 192 2 [] .running
       let s := delivering (going (.ring 0 7) 0 l)
       xferOf s 3 = some (going (.ring 0 7) 0 l) ∧ (going (.ring 0 7) 0 l).legs.find? (·.idx == 0) = some l ∧ l.promise ≤ sysNow s)
    ∧ (∀ x ∈ [going (.ring 4095 7) 0 (leg9 3 192 0 [] .delivered), going (.ring 4095 7) 0 (leg9 3 192 0 [] (.late .power)),
          going (.ring 4095 7) 1 (leg9 3 192 0 [] .drained), going (.fsp 255 9) 0 (leg9 3 192 0 [] .delivered)],
        xferOf (delivering x) x.tid = some x ∧ xferEnded x = true ∧ x.finalled = false
          ∧ (∀ l ∈ x.legs, l.ending ≠ .discarded) ∧ (∀ l ∈ x.legs, l.rxbuf = none) ∧ (∀ l ∈ x.legs, l.left = 0))
    ∧ xferOf up 3 = none
    ∧ (let l := leg9 3 200 2 [] .running
       let s := fspDelivering (going (.ring 0 7) 0 l)
       s.clk.k < s.clk.slotLen ∧ s.clk.boundaryDue = false ∧ nextCell s 200 = some (going (.ring 0 7) 0 l, l, 2)) := by
  decide +kernel

theorem witness_Migrations :
    (let s := delivering (going (.ring 0 7) 0 (leg9 3 192 2 [] .running))
     let t : State := { s with qe := { s.qe with queues := [(9, { cfg := qc 3 192 })] } }
     ownsQid t 1 9 = false ∧ (ownsQid t 0 9 = true ∧ egressOwned t 0 192 = true ∧ qEgress (qcfg t 9) = 192)
       ∧ migrateStatus t 0 9 193 = stOk ∧ epochHeld t 9 (queueOf t 9).epoch = true ∧ migrateStatus t 0 9 192 ≠ stOk)
    ∧ TakesAll [(up, .pf0, .qeMigrateLo, 0, 9)] ∧ 9 = (holding up .pf0 0x40308).toNat * 65536 + (9 : Word).toNat
    ∧ (let d := desc [(0, 7), (4, 9), (8, 193)]
       descGood d = true ∧ dOp d = 7 ∧ (offering up 4095 d).offers 4095 d []) :=
  ⟨by decide +kernel, takes_all (by decide +kernel), by decide, by decide +kernel, by decide +kernel, offers_of _ _ _ (by decide)⟩

/-- A machine with the host reached and one ring pair of PF0, and a function 0 whose MSI-X vectors 0 is open. -/
def hosted (r : Ring) : State :=
  { up with host := { rate := 5, width := 8, hcap := 96, numVFs := 15, rings := [(0, r)]
                      fns := [(0, { bme := true, msixEn := true, unmasked := [0], pba := [1] })] } }

theorem witness_HostRings :
    (let s := hosted { state := .running }
     let r : Ring := { state := .running }
     ringOf s 0 = r ∧ functionUp s 0 = true ∧ r.sqN = 16 ∧ r.cqN = 16
       ∧ (fld 15 31 30 = 0 ∧ fld 15 28 17 = 0 ∧ (15 : BitVec 32).getLsbD 29 = false ∧ 15 < r.sqN
         ∧ (fld 15 16 16 * r.sqN + 15 + 2 * r.sqN - r.sqTail) % (2 * r.sqN)
            ≤ r.sqN - (r.sqTail + 2 * r.sqN - r.sqHead) % (2 * r.sqN))
       ∧ (fld 16 31 30 = 0 ∧ fld 16 28 17 = 0 ∧ (16 : BitVec 32).getLsbD 29 = false ∧ r.sqN ≤ 16)
       ∧ (fld 0x20000010 28 17 = 0 ∧ fld 0x20000010 31 30 = 0 ∧ (0x20000010 : BitVec 32).getLsbD 29 = true
         ∧ r.cqN ≤ 0x20000010 % 65536))
    ∧ (let r : Ring := { state := .running, cqTail := 31, cqHead := 16 }
       (fld 0x2001000F 31 30 = 0 ∧ fld 0x2001000F 28 17 = 0 ∧ (0x2001000F : BitVec 32).getLsbD 29 = true
         ∧ 0x2001000F % 65536 < r.cqN ∧ (fld 0x2001000F 16 16 * r.cqN + 0x2001000F % 65536 + 2 * r.cqN - r.cqHead) % (2 * r.cqN)
            ≤ (r.cqTail + 2 * r.cqN - r.cqHead) % (2 * r.cqN)))
    ∧ functionUp up 0 = false
    ∧ TakesAll [(up, .pf0, .sysRsel, 0, 255), ({ up with vregs := [(0x22C, 0x8000)] }, .pf0, .sysRsel, 0, 255),
      ({ hosted { state := .running, cfg := BitVec.ofNat 192 (2 ^ 191) } with vregs := [(0x22C, 0x8001)] }, .pf0, .sysRsel, 0, 0),
      (hosted { state := .running, cfg := BitVec.ofNat 192 (2 ^ 191), rx := [⟨0, 1, 0⟩], reserved := 1 }, .pf0, .sysRsel, 0, 0)]
    ∧ bit (stagedRing { up with vregs := [(0x22C, 0x8000)] } .pf0) 191 = true
    ∧ (up.mode.busUp = true ∧ up.host.rate = 0 ∧ (hosted {}).host.rate ≠ 0 ∧ functionExists (hosted {}) 15 = true
      ∧ functionExists up 1 = false)
    ∧ ((fnOf (cfgWrite (hosted {}) 15 (.power true)) 15).pba = [] ∧ 127 < msixSize 15 ∧ 2047 < msixSize 0)
    ∧ ((fnOf (cfgWrite (hosted {}) 0 (.msixMask 1 true)) 0).pba = [1]
      ∧ msixOpen (cfgWrite (hosted {}) 0 (.msixMask 1 true)) 0 1 = false
      ∧ (fnOf (cfgWrite (hosted {}) 0 (.msixMask 1 false)) 0).pba = [1]
      ∧ msixOpen (cfgWrite (hosted {}) 0 (.msixMask 1 false)) 0 1 = true)
    ∧ (let s : State := { hosted {} with host := { (hosted {}).host with
         dma := [(0, [⟨0, 7, true, false, 100, 0x2000, 0x40000000, some 0, some [1], none, [], [], false⟩])] } }
       unitRuns s 0 = true ∧ (∃ c, copyOf s 0 = some c ∧ c.pos.isSome = true) ∧ unitRuns (hosted {}) 0 = false) :=
  ⟨by decide +kernel, by decide +kernel, by decide +kernel, takes_all (by decide +kernel), by decide +kernel, by decide +kernel,
    by decide +kernel, by decide +kernel, ⟨by decide +kernel, ⟨_, rfl, rfl⟩, by decide +kernel⟩⟩

/-- A machine whose ring pair 0 has nothing but announced descriptors. -/
def announced : State := hosted { state := .running, sqTail := 9 }

/-- Descriptors of every opcode that Obligations.Descriptors tells of. -/
def descs : List (BitVec 256) :=
  [desc [(0, 1), (4, 9), (8, 0xFFFF), (10, 299), (24, 0x1000)], desc [(0, 2), (8, 256), (24, 0x1000)],
    desc [(0, 2)], desc [(0, 2), (8, 257)], desc [(0, 3), (1, 3), (4, 64)], desc [(0, 9), (8, 4)], desc [(0, 9)],
    desc [(0, 10), (1, 1), (4, 64), (16, 0x2000), (24, 0x40000000)]]

theorem descs_good : ∀ d ∈ descs, descGood d = true ∧ (dOp d = 1 ∨ dOp d = 2 ∨ dOp d = 3 ∨ dOp d = 9 ∨ dOp d = 10) := by
  have h : (descs.all fun d => descGood d && (dOp d == 1 || dOp d == 2 || dOp d == 3 || dOp d == 9 || dOp d == 10)) = true := by
    decide +kernel
  intro d hd
  simpa [or_assoc] using List.all_eq_true.mp h d hd

theorem witness_Descriptors :
    (fetchTurn up ≠ some 0 ∧ fetchTurn announced = some 0 ∧ fetchable (ringOf announced 0) = true
      ∧ hostReached announced 0 = true ∧ (ringOf announced 0).fetched = [])
    ∧ (descGood (desc [(0, 3)]) = true ∧ dOp (desc [(0, 3)]) = 3) ∧ (descGood (desc [(0, 0), (2, 9)]) = true ∧ dOp (desc [(0, 0), (2, 9)]) = 0)
    ∧ (descGood (desc [(0, 8), (4, 0x10)]) = true ∧ dOp (desc [(0, 8), (4, 0x10)]) = 8 ∧ (tget [] announced.mgt.places 0).length < 16
      ∧ 16 ≤ (tget [] ([(0, List.replicate 16 ⟨0, 0, 0, 0, 0, 0, 0, none, false, false, false⟩)] : Tbl (List MReq)) 0).length)
    ∧ ((offering up 4095 (desc [(0, 11)])).offers 4095 (desc [(0, 11)]) [] ∧ descGood (desc [(0, 11)]) = false)
    ∧ (∀ d ∈ descs,
        (offering up 0 d).offers 0 d [] ∧ (offering up 4095 d).offers 4095 d [] ∧ descGood d = true
          ∧ (dOp d = 1 ∨ dOp d = 2 ∨ dOp d = 3 ∨ dOp d = 9 ∨ dOp d = 10))
    ∧ (dBytes (desc [(0, 2), (8, 256)]) 8 2 = 256 ∧ dBytes (desc [(0, 2), (8, 257)]) 8 2 = 257)
    ∧ loadRefusal (offering up 4095 (desc [(0, 3)])) 15 15 0 [] = none
    ∧ loadRefusal { up with lc := { state := .scrap } } 0 0 0 [] = some (stRefused, lcKey)
    ∧ (ringPart 4095 ≠ 0 ∧ ringPart 255 = 0 ∧ dBytes (desc [(0, 9), (8, 4)]) 8 2 ≠ 0) := by
  refine ⟨by decide +kernel, by decide +kernel, by decide +kernel, by decide +kernel, ⟨offers_of _ _ _ (by decide), by decide +kernel⟩,
    ?_, by decide +kernel⟩
  exact fun d hd => ⟨offers_of _ _ _ (by decide), offers_of _ _ _ (by decide), descs_good d hd⟩

/-- A copy of 100 bytes from bank 0 to the host, or the other way. -/
def copy (sdev : Bool) (pos : Option Nat) (data : Option (List Byte)) : Copy :=
  { ring := 0, tag := 7, sdev := sdev, ddev := !sdev, len := 100, dst := if sdev then 0x2000 else 0x40000000
    src := if sdev then 0x40000000 else 0x2000, pos := pos, unitData := data }

/-- A machine whose DMA engine may read and write bank 0, with a copy. -/
def copying (c : Copy) : State := { up with bank := { master := [(0, dmaMaster)] }, host := { dma := [(0, [c])] } }

theorem witness_CopyChannels :
    (let c := copy true none none
     copyOf (copying c) 0 = some c ∧ c.pos = none ∧ copyCheck (copying c) 0 c = none)
    ∧ (let c := { copy true none none with len := 0 }
       copyOf (copying c) 0 = some c ∧ c.pos = none ∧ copyCheck (copying c) 0 c = some stInvalid ∧ c.ring < deadRing)
    ∧ (let c := copy true (some 0) (some [1])
       copyOf (copying c) 0 = some c ∧ (List.range 16).any (unitRuns (copying c)) = true)
    ∧ (let c := copy false (some 0) none
       copyOf (copying c) 0 = some c ∧ c.pos = some 0 ∧ (List.range 16).any (unitRuns (copying c)) = false
         ∧ unitTurn (copying c) = some 0 ∧ c.sdev = false)
    ∧ (let c := copy true (some 64) none
       copyOf (copying c) 0 = some c ∧ c.pos = some 64 ∧ (List.range 16).any (unitRuns (copying c)) = false
         ∧ unitTurn (copying c) = some 0 ∧ c.sdev = true ∧ bankOf (c.src + 64) = some (0, 64)
         ∧ portBRefusal (copying c) 0 dmaMaster 0 (.read (runChunk (c.src + 64) (unitSize c 64))) = none)
    ∧ (let c := copy false (some 0) none
       let s : State := { copying c with host := { (copying c).host with reads := [⟨5, .copyUnit 0, 0x2000, 2, []⟩] } }
       copyOf s 0 = some c ∧ 0 + 2 < c.len ∧ pick (·.id == 5) s.host.reads = some (⟨5, .copyUnit 0, 0x2000, 2, []⟩, [])
         ∧ c.ddev = true ∧ bankOf (c.dst + 0) = some (0, 0)
         ∧ portBRefusal s 0 dmaMaster 0 (.write (([1, 2] : List Byte).take (runChunk (c.dst + 0) 2))) = none)
    ∧ (let c := copy true (some 0) (some (List.replicate 64 1))
       c.ddev = false ∧ c.abort = false ∧ 0 + 64 < c.len ∧ 64 ≤ (fnOf (copying c) (ringPart c.ring)).mps ∧ c.ring < deadRing)
    ∧ (let c := copy true (some 64) (some (List.replicate 36 1))
       c.unitData = some (List.replicate 36 1) ∧ 64 + 36 = c.len ∧ c.ring < deadRing) := by decide +kernel

/-- A ring pair's completion. -/
def entry : Cpl := ⟨0, kDone, stOk, 0, 7, 5, 0, 1, [], [], none⟩

theorem witness_Completions :
    up.host.cpl = []
    ∧ (∀ r ∈ [({ state := .running, reserved := 1, cqTail := 31 } : Ring),
          { state := .running, reserved := 1, cfg := BitVec.ofNat 192 (2 ^ 160 + 12 * 2 ^ 172) },
          { state := .running, reserved := 1, cfg := BitVec.ofNat 192 (2 ^ 176) }],
        let s : State := { hosted r with regs := [(0xE0000, 0)], host := { (hosted r).host with cpl := [entry] } }
        s.host.cpl = entry :: [] ∧ hostReached s 0 = true ∧ ringOf s 0 = r ∧ r.state = .running ∧ sinkOn s = false
          ∧ entry.writes = [] ∧ entry.takes = [] ∧ entry.place = none ∧ fld r.cfg.toNat 175 172 ≤ 12)
    ∧ ((ringOf (hosted {}) 0).coal = 0 ∧ msixOpen (hosted {}) 0 (ringOf (hosted {}) 0).vec = true)
    ∧ (let r : Ring := { cfg := BitVec.ofNat 192 (3 * 2 ^ 176) }
       r.coal = 0 ∧ msixOpen (hosted r) 0 r.vec = false)
    ∧ (let r : Ring := { cfg := BitVec.ofNat 192 (2 ^ 160), unsignalled := some 0 }
       let s : State := { hosted r with clk := { started := true, f1 := 600 } }
       (ringOf s 0).unsignalled = some 0 ∧ passed s 0 (r.coal * 600) = true ∧ passed (hosted r) 0 (r.coal * 600) = false)
    ∧ (let x : Xfer := { going (.ring 0 7) 0 (leg9 3 192 2 [] .running) with data := none }
       let s : State := { delivering x with host := { reads := [⟨5, .src 3, 0x1000, 2, []⟩] } }
       pick (·.id == 5) s.host.reads = some (⟨5, .src 3, 0x1000, 2, []⟩, []) ∧ xferOf s 3 = some x ∧ x.spill = []) := by
  decide +kernel

/-! Segment ports, links, DRAM, management. -/

/-- A machine whose segment port 0 has SEG_CTL, a state and one transfer of queue 9. -/
def segment (ctl : Word) (g : Seg) (xs : List Xfer) : State :=
  { up with regs := [(0x60400, ctl)], seg := [(0, g)], clk := { started := true, systime := 2000000, f1 := 1200000 }
            qe := { queues := [(9, { tokens := 5000 })], xfers := xs, nextTid := 4 } }

/-- A transfer of one frame on port 0. -/
def frame9 (l : Leg) : Xfer := going (.ring 0 7) 0 l

theorem witness_SegmentCycles :
    TakesAll [(segment 0 {} [], .pf0, .segCtl, 0, 0x8100), (segment 0x8100 {} [], .pf0, .segCtl, 0, 0x8103),
      (up, .pf0, .segCtl, 191, 0xC204)]
    ∧ (0x8100 / 4 ≠ segCtl (segment 0 {} []) 0 / 4 ∧ 0x8103 / 4 = segCtl (segment 0x8100 {} []) 0 / 4 ∧ 2 ≤ fld 0xC204 15 14
      ∧ fld 0xC204 15 14 = 3)
    ∧ (∀ c ∈ [none, some 1], let s := segment 0x8100 { state := .active, node := 2, cycleStart := c } []
       segState s 0 = .active ∧ segRole s 0 = 2 ∧ segNcm1 s 0 < (segOf s 0).node ∧ (segOf s 0).cycleStart = c)
    ∧ segState up 191 ≠ .active
    ∧ (∀ lost ∈ [true, false], let s := segment 0xC104 { state := .fallback, lost := lost, lastBeacon := 960000 } []
       segOn s 0 = true ∧ segRole s 0 = 3 ∧ (segOf s 0).lost = lost
         ∧ passed s (max (segOf s 0).lastBeacon s.runSince) 240000 = true)
    ∧ (let s := segment 0xC104 { lastBeacon := 960001 } []
       passed s (max (segOf s 0).lastBeacon s.runSince) 240000 = false)
    ∧ (∀ n ∈ [0, 1], let s := segment 0x8100 { state := .active, node := n } []
       segState s 0 = .active ∧ (segOf s 0).node ≤ segNcm1 s 0) :=
  ⟨takes_all (by decide +kernel), by decide +kernel⟩

/-- Port 0 in its own transmit opportunity, and under CSMA/CD, with a frame. -/
def ownTurn (l : Leg) : State := segment 0x8100 { state := .active, node := 0 } [frame9 l]
def csmaTurn (l : Leg) : State := segment 0x4000 {} [frame9 l]

/-- The unbooked frames, good or late, at their first attempt and their last. -/
def freeLegs : List Leg :=
  [leg9 3 0 2 [] .running, leg9 2 0 2 [] .running, leg9 1 0 2 [] (.late .medium), { leg9 1 0 2 [] (.late .medium) with attempts := 1 }, { leg9 3 0 2 [] .running with attempts := 15 }]

/-- A booked frame whose window runs. -/
def bookedLeg : Leg := leg9 1 0 2 [⟨0, 9000000, 0, false⟩] .running

theorem witness_SegmentTransmissions :
    (∀ l ∈ freeLegs, segSends (ownTurn l) 0 (.transmitOpportunity 0) (frame9 l) l
      ∧ segSends (csmaTurn l) 0 (.csmaAttempt 0) (frame9 l) l
      ∧ segState (ownTurn l) 0 = .active ∧ segState (csmaTurn l) 0 ≠ .active)
    ∧ segSends (ownTurn bookedLeg) 0 (.transmitOpportunity 0) (frame9 bookedLeg) bookedLeg
    ∧ (windowOpen (ownTurn bookedLeg) 0 bookedLeg = true ∧ segState (ownTurn bookedLeg) 0 = .active ∧ bookedLeg.deliverAs = 1)
    ∧ (∀ l ∈ bookedLeg :: freeLegs, frame9 l ∈ (ownTurn l).qe.xfers ∧ frame9 l ∈ (csmaTurn l).qe.xfers ∧ l ∈ (frame9 l).legs)
    ∧ (∀ l ∈ bookedLeg :: freeLegs, (∀ y ∈ (ownTurn l).qe.xfers, y.tid = 3 → y = frame9 l)
      ∧ (∀ y ∈ (csmaTurn l).qe.xfers, y.tid = 3 → y = frame9 l) ∧ ∀ m ∈ (frame9 l).legs, m.idx = l.idx → m = l) := by
  refine ⟨?_, ?_, by decide +kernel⟩
  · intro l hl
    simp only [freeLegs, List.mem_cons, List.not_mem_nil, or_false] at hl
    obtain rfl | rfl | rfl | rfl | rfl := hl <;>
      exact ⟨⟨rfl, .inl ⟨rfl, by decide +kernel⟩⟩, ⟨rfl, .inr ⟨rfl, by decide +kernel⟩⟩, by decide +kernel⟩
  · exact ⟨rfl, .inl ⟨rfl, by decide +kernel⟩⟩

/-- A frame of 60 bytes from the MAC address 1. -/
def frame60 : List Byte := List.replicate 11 0 ++ [1] ++ List.replicate 48 0

/-- The roster entry of node 1 with that address. -/
def node1 (rxen : Bool) (maxb : Nat) : Nat := 2 ^ 127 + place rxen 126 + 2 ^ 120 + 9 * 2 ^ 96 + maxb * 2 ^ 80 + 1

/-- Port 0 in an opportunity of a node, with that entry. -/
def listening (ctl : Word) (node : Nat) (rxen : Bool) (maxb : Nat) (absent : List Nat) : State :=
  { segment ctl { state := if ctl = 0x4000 then .csma else .active, node := node, absent := absent } [] with
    roster := [(5, BitVec.ofNat 128 (node1 rxen maxb))] }

/-- The entry of the frame's sender when its transmission began. -/
def sender (s : State) : Option Nat := (rosterAt s 0 (s.clk.f1 - frameCycles frame60.length)).find? fun r => rMac r == 1

theorem witness_SegmentReceptions :
    segState up 191 = .off
    ∧ (60 ≤ frame60.length ∧ frame60.length ≤ 1518 ∧ beVal ((frame60.drop 6).take 6) = 1)
    ∧ (∀ s ∈ [listening 0x4000 64 true 84 [1], listening 0x4000 64 true 84 []],
        segState s 0 ≠ .off ∧ segState s 0 ≠ .active ∧ sender s = some (node1 true 84))
    ∧ (∀ rx ∈ [true, false], let s := listening 0x8100 1 rx 84 []
      sender s = some (node1 rx 84) ∧ segState s 0 = .active ∧ (segOf s 0).node ≠ ownNode s 0
        ∧ rNode (node1 rx 84) = (segOf s 0).node ∧ (segOf s 0).oppBytes + wireSize frame60.length ≤ rMaxb (node1 rx 84)
        ∧ rRxen (node1 rx 84) = rx)
    ∧ (rNode (node1 true 84) ∈ (segOf (listening 0x4000 64 true 84 [1]) 0).absent
      ∧ rNode (node1 true 84) ∉ (segOf (listening 0x8100 1 true 84 []) 0).absent)
    ∧ (let s := listening 0x8100 0 true 84 []
       sender s = some (node1 true 84) ∧ segState s 0 = .active ∧ (segOf s 0).node = ownNode s 0)
    ∧ (let s := listening 0x8100 1 true 83 []
       sender s = some (node1 true 83) ∧ segState s 0 = .active ∧ (segOf s 0).node ≠ ownNode s 0
         ∧ rNode (node1 true 83) = (segOf s 0).node ∧ rMaxb (node1 true 83) < (segOf s 0).oppBytes + wireSize frame60.length)
    ∧ (∀ s ∈ [segment 0x4000 {} [], segment 0x8100 { state := .active, node := 0 } []], segState s 0 ≠ .off ∧ sender s = none)
    ∧ (∀ n ∈ [0, 1], let s := segment 0x8100 { state := .active, node := n } []
      segState s 0 = .active ∧ ((segOf s 0).node = ownNode s 0 ↔ n = 0))
    ∧ ([0, 1] : List Byte).length < 60 ∧ 1518 < (List.replicate 1519 (0 : Byte)).length := by
  decide +kernel

theorem witness_SegmentRosters :
    TakesAll [({ segment 0x8100 {} [] with vregs := [(0x62000, 1), (0x62014, 84), (0x6201C, 0xC100)] }, .pf0, .segRsel, 0, 63)]
    ∧ (let s := listening 0x8100 0 true 84 []
       let r := rosterEntry s 0 5
       rValid r = true ∧ segOn s 0 = true ∧ 0 < rMaxb r ∧ 0 < segAbs s 0 ∧ rNode r ∉ (segOf s 0).absent
         ∧ passed s (max (tget 0 (segOf s 0).heard (rNode r)) s.runSince) (segAbs s 0 * 600000) = false)
    ∧ (let s : State := { listening 0x8100 0 true 84 [] with clk := { started := true, f1 := 6000000 } }
       let r := rosterEntry s 0 5
       rValid r = true ∧ segOn s 0 = true ∧ 0 < rMaxb r ∧ 0 < segAbs s 0 ∧ rNode r ∉ (segOf s 0).absent
         ∧ passed s (max (tget 0 (segOf s 0).heard (rNode r)) s.runSince) (segAbs s 0 * 600000) = true) :=
  ⟨takes_all (by decide +kernel), by decide +kernel⟩

/-- A machine with link 7 enabled, in a state. -/
def linked (l : Link) : State := { up with regs := [(0x7011C, 0xC000)], link := [(7, l)] }

/-- A MAP entry of queue 9: V, first, last, HOP, LEN and the CRC of its cell. -/
def mapOf (first last : Bool) (hop len crc : Nat) : BitVec 56 :=
  BitVec.ofNat 56 (2 ^ 55 + place first 54 + place last 53 + hop * 2 ^ 47 + 9 * 2 ^ 27 + len * 2 ^ 19 + crc)

/-- A cell of zeros and its CRC. -/
def cell0 : List Byte := List.replicate 256 0
def crc0 : Nat := (crc16 cell0).toNat

theorem witness_LinkTraffic :
    TakesAll [(up, .pf0, .lnkCtl, 7, 0xC000), (linked { state := .up }, .pf0, .lnkCtl, 7, 0x8000),
      ({ linked { state := .up } with timeSrc := some 7 }, .pf0, .lnkCtl, 7, 0)]
    ∧ linkState up 7 = .off
    ∧ (let x := slotSent { linked { state := .up } with regs := [(0x70000, 1), (0x7011C, 0xC000)] } 7 0
       slotCrcGood x.1 = true ∧ fld x.1.toNat 55 44 ≠ devid (linked { state := .up, rxSeq := some 1 }) ∧ ctrlCrcGood x.2 = true
         ∧ ctrlCrcGood (x.2 + 1) = false ∧ linkState (linked { state := .up, rxSeq := some 1 }) 7 = .up
         ∧ (linkOf (linked { state := .up, rxSeq := some 1 }) 7).rxSeq = some 1 ∧ (1 : BitVec 32) ≠ BitVec.ofNat 32 (ctrlField x.2 24 4))
    ∧ (let x := slotSent (linked { state := .up }) 7 0
       slotCrcGood x.1 = true ∧ fld x.1.toNat 55 44 = devid (linked { state := .up }))
    ∧ (cell0.length = 256 ∧ crc0 < 65536)
    ∧ (let s := linked { state := .up, rxOpen := [⟨9, 31, [1]⟩] }
       (linkOf s 7).rxOpen.find? (·.qid == 9) = some ⟨9, 31, [1]⟩ ∧ ∃ o ∈ (linkOf s 7).rxOpen, o.qid = 9)
    ∧ (∀ o ∈ (linkOf (linked { state := .up }) 7).rxOpen, o.qid ≠ 9)
    ∧ (timShare (linked {}) 7 (qidPart (linked {}) 9) ≠ 0
      ∧ timShare { linked {} with regs := [(0x503C0, 0)] } 7 0 = 0)
    ∧ (qEgress (qcfg { linked {} with qe := { queues := [(9, { cfg := qc 3 192 })] } } 9) = 192 ∧ qEgress (qcfg (linked {}) 9) < 192) := by
  exact ⟨takes_all (by decide +kernel), by decide +kernel, by decide +kernel, by decide +kernel, ⟨by decide +kernel, BitVec.isLt _⟩,
    by decide +kernel⟩

/-- The bits of such an entry with the CRC of its cell. -/
theorem mapOf_fields (c : Nat) (h : c < 65536) (first last : Bool) :
    (mapOf first last 31 5 c).getLsbD 55 = true ∧ (mapOf first last 31 5 c).getLsbD 54 = first
      ∧ (mapOf first last 31 5 c).getLsbD 53 = last ∧ fld (mapOf first last 31 5 c).toNat 15 0 = c
      ∧ fld (mapOf first last 31 5 c).toNat 46 27 = 9 := by
  cases first <;> cases last <;>
    simp only [mapOf, place, BitVec.getLsbD_ofNat, Nat.testBit_eq_decide_div_mod_eq, BitVec.toNat_ofNat, fld] <;>
    simp <;> omega

theorem witness_LinkTraffic_cells (first last : Bool) :
    (mapOf first last 31 5 crc0).getLsbD 55 = true ∧ (mapOf first last 31 5 crc0).getLsbD 54 = first
      ∧ (mapOf first last 31 5 crc0).getLsbD 53 = last ∧ (crc16 cell0).toNat = fld (mapOf first last 31 5 crc0).toNat 15 0
      ∧ (crc16 cell0).toNat ≠ fld (mapOf first last 31 5 ((crc0 + 1) % 65536)).toNat 15 0
      ∧ fld (mapOf first last 31 5 crc0).toNat 46 27 = 9 := by
  have h : crc0 < 65536 := BitVec.isLt _
  have a := mapOf_fields crc0 h first last
  have b := mapOf_fields ((crc0 + 1) % 65536) (Nat.mod_lt _ (by decide)) first last
  refine ⟨a.1, a.2.1, a.2.2.1, a.2.2.2.1.symm, ?_, a.2.2.2.2⟩
  rw [b.2.2.2.1]
  show crc0 ≠ (crc0 + 1) % 65536
  omega

theorem witness_LinkStates :
    (let s := linked { state := .train, lastValid := some 0 }
     linkState s 7 = .train ∧ linkHeard s 7 = true)
    ∧ (let s := linked { state := .handshake, sendReady := true, stored := some 5 }
       linkState s 7 = .handshake ∧ (linkOf s 7).sendReady = true ∧ (linkOf s 7).upAfter = none
         ∧ (linkOf s 7).stored = some 5 ∧ (linkOf s 7).stored ≠ some 6)
    ∧ ((6 : BitVec 32) ≠ up.flash.inc ∧ linkState up 7 ≠ .handshake)
    ∧ (let s : State := { linked { state := .handshake, afterAbsent := true } with clk := { started := true, f1 := 600000 } }
       linkState s 7 = .handshake ∧ (linkOf s 7).afterAbsent = true ∧ (linkOf s 7).upAfter = none
         ∧ passed s (linkOf s 7).hsStart 600000 = true)
    ∧ (let s := linked { state := .handshake }
       linkState s 7 = .handshake ∧ passed s (linkOf s 7).hsStart 600000 = false)
    ∧ (let s := linked { state := .up, lastValid := some 0, pState := 5 }
       linkState s 7 = .up ∧ (linkOf s 7).pState = 5)
    ∧ (let s := linked { state := .up, lastValid := some 0, pState := 3 }
       linkState s 7 = .up ∧ linkHeard s 7 = true ∧ (linkOf s 7).pState ≠ 1 ∧ (linkOf s 7).pState ≠ 5)
    ∧ (let s := linked { state := .retrain, pState := 4 }
       linkState s 7 = .retrain ∧ linkHeard s 7 = false ∧ (linkOf s 7).pState = 4)
    ∧ (∀ v ∈ [none, some 0], let s := linked { state := .absent, retryAt := some 0, lastValid := v }
       linkState s 7 = .absent ∧ (linkOf s 7).retryAt = some 0 ∧ 0 ≤ s.clk.f1 ∧ linkHeard s 7 = v.isSome)
    ∧ (let s := linked { state := .absent, retryAt := some 1 }
       (linkOf s 7).retryAt = some 1 ∧ s.clk.f1 < 1) := by
  decide +kernel

/-- A machine whose channels hold 16 GiB each, with requests at channel 0 and one written block. -/
def memory (reqs : List DReq) : State :=
  { up with dram := { ch0 := { ready := true, gib := 16, reqs := reqs }, ch1 := { ready := true, gib := 16 }
                      blk := [(0, .good)], nextId := 9 } }

/-- RUN, with one Almanac entry of a kind for channel 0, at an offset of slots. -/
def reserving (kind off : Nat) (s : State) : State :=
  { s with regs := [(0x50000, 0x8000)], alm := { entries :=
      [(0, BitVec.ofNat 128 (kind * 2 ^ 124 + off * 2 ^ 96 + 2 ^ 80 + 4552 * 2 ^ 64))] } }

theorem refreshQuota_bounds (mc : Nat) : 0 < refreshQuota mc ∧ refreshQuota mc ≤ 2 := by
  unfold refreshQuota; split <;> decide

theorem witness_DramAccesses :
    (up.dram.ch0.ready = false ∧ up.dram.ch0.fail = false ∧ up.clk.started = true)
    ∧ ((memory []).dram.ch0.ready = true ∧ (memory []).dram.ch0.selfRefresh = false ∧ up.mode.timeRuns = true
      ∧ scheduledRefresh (memory []) 0 = false)
    ∧ (∀ off ∈ [0, 5], let s := reserving 3 off (memory [])
       scheduledRefresh s 0 = true ∧ refreshSlot s 0 = (off == 0) ∧ s.dram.ch0.lastRefresh ≠ some (s.clk.systime / 1000)
         ∧ s.mode.timeRuns = true ∧ s.dram.ch0.ready = true)
    ∧ (dramRefusal (memory []) 0 0x3FFFFFFFF (.read 1) = none ∧ dramWindow 0x3FFFFFFFF / 128 = 0
      ∧ 0x3FFFFFFFF % 0x40000000 + 1 ≤ 0x40000000 ∧ dramRefusal (memory []) 1 0 (.read 1) = some stDenied
      ∧ windowPart (memory []) 0 ≠ 1)
    ∧ (let c := chanOf (memory (List.replicate 64 ⟨3, 7, 0, 0, .read 1⟩)) 0
       64 ≤ (c.reqs.filter (·.part == 0)).length ∧ ((c.reqs.filter (·.part == 1)).length < 64 ∧ ∀ x ∈ c.outside, x.part ≠ 1))
    ∧ (dramRefusal { up with dram := { ch0 := { fail := true } } } 0 0 (.read 1) = some stAbsent
      ∧ windowPart up 0 = 0 ∧ up.dram.ch0.fail = false ∧ up.dram.ch0.ready = false)
    ∧ (0x40000000 < 0x3FFFFFFF % 0x40000000 + accSize (.read 2))
    ∧ (∀ acc ∈ [.read 64, .write [1, 2], .write (List.replicate 64 7), .amo 0 5],
        let r : DReq := ⟨3, 7, 15, 0, acc⟩
        let s : State := { memory [r] with regs := [(0x80000, 15)] }
        nextPart s.dram.ch0 = some 15 ∧ s.dram.ch0.selfRefresh = false ∧ maintSlot s 0 = false
          ∧ pick (·.part == 15) s.dram.ch0.reqs = some (r, [])
          ∧ dramRefusal (setChan s 0 { s.dram.ch0 with reqs := [], lastPart := 15 }) 15 0 acc = none ∧ blkOf s 0 = .good
          ∧ windowFast s (dramWindow (64 * (0 / 64))) = false)
    ∧ (let r : DReq := ⟨3, 7, 0, 60, .read 8⟩
       let s : State := { memory [r] with dram := { (memory [r]).dram with blk := [(0, .good), (1, .good)] } }
       nextPart s.dram.ch0 = some 0 ∧ maintSlot s 0 = false ∧ 64 < r.addr % 64 + 8 ∧ blkOf s (r.addr / 64) = .good
         ∧ blkOf s (r.addr / 64 + 1) = .good ∧ dramRefusal (setChan s 0 { s.dram.ch0 with reqs := [], lastPart := 0 }) 0 60 (.read 8) = none)
    ∧ dramRefusal (memory []) 15 0 (.read 1) = some stDenied
    ∧ (nextPart up.dram.ch0 ≠ some 0 ∧ maintSlot (reserving 4 0 (memory [])) 0 = true) := by decide +kernel

/-- A machine with deferred activities. -/
def deferring (a : Activity) : State := { up with dram := { deferred := [a] }, flash := { pendingBlocks := [4] } }

theorem witness_WindowsAndScrubbing :
    TakesAll [(up, .pf0, .memWin, 255, 0x4000), (memory [], .pf0, .memWin, 0, 0x4001), (memory [], .pf0, .memWin, 0, 0)]
    ∧ ((0x4001 : Word) &&& 0x400F ≠ dev (memory []) 0x80000 0 ∧ windowPresent (memory []) 0 = true ∧ windowPresent up 255 = false)
    ∧ (let s : State := { up with dram := { filling := [255] } }
       255 ∈ s.dram.filling ∧ maintMay s (255 / 128) = true ∧ 255 ∉ up.dram.filling)
    ∧ maintMay (reserving 3 0 (memory [])) 0 = false
    ∧ (∀ k, k < 5 → scrubOn up k = true ∧ up.clk.started = true ∧ scrubWaits up k = false ∧ scrubDeferred up k = false
        ∧ scrubAccess up k = true)
    ∧ (scrubSkip up 0 0 = none ∧ (scrubberOf up 0).pos + (scrubSkip up 0 0).getD 1 < scrubUnits 0 ∧ (cycleOf up 0).aWrote = []
      ∧ scrubUnits 0 ≤ (scrubberOf { up with dram := { scr := [(0, { pos := 12582911 })] } } 0).pos + 1)
    ∧ (let s : State := { up with bank := { fill := [(0, some ⟨0, none, 0⟩)] } }
       scrubOn s 0 = true ∧ s.clk.started = true ∧ scrubWaits s 0 = false ∧ scrubDeferred s 0 = true)
    ∧ scrubOn { up with regs := [(0x80410, 0)] } 0 = false
    ∧ pick (taskFree up) up.dram.deferred = none
    ∧ (∀ a ∈ [Activity.scrub 0 [], .flash, .quota, .journalErase], pick (taskFree (deferring a)) (deferring a).dram.deferred = some (a, []))
    ∧ (scrubSkip (deferring (.scrub 0 [])) 0 0 = none
      ∧ (deferring .quota).flash.pendingBlocks = 4 :: [] ∧ badBlock (deferring .quota) (0xB00 + 4) = false
      ∧ chatyNext (deferring .flash) = none) :=
  ⟨takes_all (by decide +kernel), by decide +kernel⟩

/-- A management request of a code, its bytes read or not. -/
def mreq (code reqLen : Nat) (bytes : Option (List Byte)) (working : Bool) : MReq :=
  ⟨0, 7, code, reqLen, 64, 0x2000, 0x1000, bytes, false, working, false⟩

/-- A machine with a management request of a partition. -/
def asking (p : Nat) (m : MReq) : State := { up with mgt := { places := [(p, [m])] } }

/-- The same in service. -/
def inWork (p : Nat) (m : MReq) (t0 : Nat) : State :=
  { up with mgt := { places := [(p, [m])], serving := some (p, t0) } }

theorem inService (s : State) (p : Nat) (m : MReq) (code : Nat) (bs : List Byte)
    (h : decide (chatyNext s = some (p, m) ∧ chatyUp s = true ∧ m.code = code ∧ m.working = false ∧ m.bytes = some bs
      ∧ m.failed = false) = true) : InService s p m code bs := by
  have h := of_decide_eq_true h
  exact ⟨h.1, h.2.1, h.2.2.1, h.2.2.2.1, h.2.2.2.2.1, h.2.2.2.2.2⟩

theorem witness_ManagementRequests :
    chatyUp up = true
    ∧ (∀ p ∈ [0, 15], ∀ m ∈ [mreq 0x0001 0 none false, mreq 0x0001 1 none false, mreq 0x0002 0 none false,
          mreq 0x0030 196608 none false, mreq 0x0030 1024 none false],
        chatyNext (asking p m) = some (p, m) ∧ m.working = false ∧ m.bytes = none ∧ (asking p m).mgt.serving = none
          ∧ (asking p m).lc.state ≠ .scrap)
    ∧ ({ asking 0 (mreq 0x0002 0 none false) with lc := { state := .scrap } } : State).lc.state = .scrap
    ∧ InService (inWork 0 (mreq 0x0030 2 (some [1, 2]) false) 0) 0 (mreq 0x0030 2 (some [1, 2]) false) 0x0030 [1, 2]
    ∧ (let s : State := { inWork 0 (mreq 0x0030 2 (some [1, 2]) true) 0 with
         jrn := { intake := [⟨engRec 0 0 0x16 0x12 stOk 5 0 0, 1, true, 1, [.fwUpdate 5 [1, 2]]⟩] }, regs := [(0xE0000, 0)] }
       s.clk.started = true ∧ s.mgt.serving = some (0, 0) ∧ openReq s 0 = some (mreq 0x0030 2 (some [1, 2]) true) ∧ (mreq 0x0030 2 (some [1, 2]) true).code = 0x0030
         ∧ s.jrn.waiting = [] ∧ s.jrn.missedCount = 0 ∧ sinkOn s = false)
    ∧ (let s := inWork 15 (mreq 0x0001 0 none false) 0
       s.mgt.serving = some (15, 0) ∧ openReq s 15 = some (mreq 0x0001 0 none false) ∧ passed s 0 600000000 = false
         ∧ passed { s with clk := { f1 := 600000000 } } 0 600000000 = true)
    ∧ (chatyNext (asking 15 (mreq 0x0003 0 none false)) = some (15, mreq 0x0003 0 none false) ∧ 0x0003 ∉ mgmtCodes
      ∧ 0x0001 ∈ mgmtCodes) :=
  ⟨by decide, by decide +kernel, rfl, inService _ _ _ _ _ (by decide +kernel), by decide +kernel⟩

/-- Hart 3 at the start of bank 0 before an instruction, with stores in its buffer, a reservation, and x1 and x2. -/
def before (word : BitVec 32) (st : List SEntry) (r : Option (BitVec 32)) (a d : BitVec 32) : State :=
  { up with hart3 := { state := .run, store := st, reservation := r, pc := 0x40000000, prefetch := [(0x40000000, some word)]
                       x := [(1, a), (2, d)] } }

/-- Four stores, the first sent or not. -/
def four (sent : Option Nat) : List SEntry :=
  ⟨0x40000000, [1, 2, 3, 4], sent⟩ :: List.replicate 3 ⟨0x40000010, [1], none⟩

theorem before_quiet (w : BitVec 32) (st : List SEntry) (r : Option (BitVec 32)) (a d : BitVec 32) : (before w st r a d).Quiet :=
  ⟨rfl, rfl, rfl, rfl, rfl, rfl, rfl⟩

/-- Addresses that are misaligned, outside the map, in the view and in a bank, for accesses of a size. -/
def reach : List (BitVec 32 × Nat × Target) :=
  [(0x40007FFE, 4, .misaligned), (0x20000003, 2, .misaligned), (0, 4, .outside), (0x42FFFFFC, 4, .bank 1535 0x7FFC),
    (0x20000041, 1, .view 0x40 1), (0x200FFFFC, 4, .view 0xFFFFC 0), (0x43000000, 4, .outside), (0x40000010, 2, .bank 0 16)]

theorem reached : ∀ x ∈ reach, targetOf x.1.toNat x.2.1 = x.2.2 := by decide +kernel

theorem witness_HartLoadsAndStores :
    (∀ st ∈ [[], four none], ∀ x ∈ reach,
      hartDoes (before (if x.2.1 = 4 then 0x0000A283 else if x.2.1 = 2 then 0x00009283 else 0x0000C283) st none x.1 0) 3
          (.load 5 x.1 x.2.1 (x.2.1 != 1)) = true
        ∧ accessSize x.2.1 = true
        ∧ hartDoes (before (if x.2.1 = 4 then 0x0020A023 else if x.2.1 = 2 then 0x00209023 else 0x00208023) st (some 0x40000000) x.1 7) 3
          (.store x.1 x.2.1 7) = true)
    ∧ ((four none) ≠ [] ∧ (hartOf (before 0 (four none) none 0 0) 3).store = four none ∧ 4 ≤ (four none).length)
    ∧ (∃ r i stg, findReg 0x40 = some (r, i, stg) ∧ r.reg ∉ ([.mbxD, .pinSdat, .evtClaim] : List Reg)
      ∧ visible (before 0 [] none 0 0) (.hart 3) r i = true ∧ domainStopped (before 0 [] none 0 0) r.reg.domain = false)
    ∧ (findReg 0xFFFFC = none ∧ busAborts (before 0 [] none 0x200FFFFC 0) (.hart 3) 0x40 = false)
    ∧ (let s : State := { before 0x0000C283 [] none 0x20000041 0 with clk := { started := true, refFault := true, refAbsent := true } }
       hartDoes s 3 (.load 5 0x20000041 1 false) = true ∧ (busAborts s (.hart 3) 0x40 = true ∨ busAborts s (.hart 3) 0x40 = false))
    ∧ (let x := hartOf (before 0 (four none) none 0 0) 3
       bufferedAll x 0x40000000 4 = some [1, 2, 3, 4] ∧ targetOf 0x40000000 4 = .bank 0 0
         ∧ overlaps x 0x40000020 4 = false ∧ bufferedAll x 0x40000020 4 = none ∧ targetOf 0x40000020 4 = .bank 0 0x20
         ∧ overlaps x 0x40000010 4 = true ∧ bufferedAll x 0x40000010 4 = none)
    ∧ ((0x40000000 : BitVec 32).toNat / 4 = (0x40000002 : BitVec 32).toNat / 4
      ∧ ∀ i, i < 2 → (0x40000004 + i) / 4 ≠ (0x40000000 : BitVec 32).toNat / 4)
    ∧ (hartRuns (before 0 (four none) none 0 0) 3 = true
      ∧ targetOf 0x40000000 4 = .bank 0 0 ∧ portBRefusal (before 0 (four none) none 0 0) 0 5 0 (.write [1, 2, 3, 4]) = some stDenied
      ∧ portBRefusal { before 0 (four none) none 0 0 with bank := { master := [(0, 5)] } } 0 5 0 (.write [1, 2, 3, 4]) = none)
    ∧ (four (some 5) = ⟨0x40000000, [1, 2, 3, 4], some 5⟩ :: List.replicate 3 ⟨0x40000010, [1], none⟩)
    ∧ (∀ st ∈ [[], four none], hartDoes (before 0x0FF0000F st none 0 0) 3 (.fence 15 false) = true
      ∧ hartDoes (before 0x8330000F st none 0 0) 3 (.fence 3 true) = true ∧ hartDoes (before 0x00F0000F st none 0 0) 3 (.fence 0 false) = true
      ∧ hartDoes (before 0x0000100F st none 0 0) 3 .fenceI = true) := by
  refine ⟨by decide +kernel, by decide +kernel, ⟨_, _, _, rfl, by decide +kernel⟩, by decide +kernel, by decide +kernel,
    by decide +kernel, by decide +kernel, by decide +kernel, rfl, by decide +kernel⟩

/-- An LR, an SC and two AMOs at an address stand before the hart. -/
def atomics (a : BitVec 32) (st : List SEntry) (r : Option (BitVec 32)) : Bool :=
  hartDoes (before 0x1000A2AF st r a 7) 3 (.lr 5 a)
    && hartDoes (before 0x1820A2AF st r a 7) 3 (.sc 5 a 7 false) && hartDoes (before 0x1A20A2AF st r a 7) 3 (.sc 5 a 7 true)
    && hartDoes (before 0x0020A2AF st r a 7) 3 (.amo 5 (AmoOp.code .add) a 7 false)
    && hartDoes (before 0x0A20A2AF st r a 7) 3 (.amo 5 (AmoOp.code .swap) a 7 true)

theorem witness_HartAtomics :
    (([0x40000002, 0, 0x3FFFFFFC, 0x43000000, 0x40000000, 0x42FFFFFC, 0x40000010] : List (BitVec 32)).all fun a =>
      atomics a [] none && atomics a [] (some a) && atomics a (four none) none) = true
    ∧ (bankOf 0x3FFFFFFC = none ∧ bankOf 0x43000000 = none ∧ bankOf 0 = none ∧ bankOf 0x40000000 = some (0, 0)
      ∧ bankOf 0x42FFFFFC = some (1535, 0x7FFC) ∧ bankOf 0x40000010 = some (0, 16))
    ∧ (let x := hartOf (before 0 (four none) none 0 0) 3
       overlaps x 0x40000010 4 = true ∧ overlaps x 0x42FFFFFC 4 = false ∧ x.store ≠ [])
    ∧ portBRefusal { before 0 [] none 0 0 with bank := { master := [(0, 5)] } } 0 5 0 (.amo (AmoOp.code .add) 7) = none := by
  decide +kernel

/-- The event controller with source 3 routed to hart 3. -/
def claiming (active : List Nat) : State :=
  { up with regs := [(0xB1000 + 12, 0xA003)], ev := { pending := [3, 9], active := active } }

/-- Hart 3 enabled for interrupts. -/
def interrupted (b : Nat) : State :=
  { claiming [] with hart3 := { state := .run, mie := true, mieReg := BitVec.ofNat 32 (2 ^ b), mtimecmp := 0 } }

theorem witness_HartControl :
    TakesAll [(up, .pf0, .hrtCtl, 3, 0x85FF), (up, .pf0, .hrtCtl, 3, 0x05FF), (up, .pf0, .hrtCtl, 3, 0xC000)]
    ∧ (claiming []).Quiet
    ∧ (∃ r, regMap.find? (·.reg == .evtClaim) = some r ∧ visible (claiming []) .pf0 r 3 = true ∧ visible (claiming []) (.hart 3) r 3 = true)
    ∧ (∀ st ∈ [[], four none], hartDoes (before 0x10500073 st none 0 0) 3 .wfi = true ∧ (hartOf (before 0x10500073 st none 0 0) 3).store = st)
    ∧ (hartReady (before 0x00000073 [] none 0 0) 3 = true ∧ hartException (hartAct (before 0x00000073 [] none 0 0) 3) = some (11, 0))
    ∧ (let s : State := { up with hart3 := { state := .run, pc := 0x40000000, prefetch := [(0x40000000, none)] } }
       hartReady s 3 = true ∧ hartException (hartAct s 3) = some (1, 0x40000000) ∧ (hartOf s 3).pc = (hartOf s 3).mtvec)
    ∧ (∀ b ∈ [7, 11], let s := interrupted b
       hartReady s 3 = true ∧ (hartOf s 3).mie = true ∧ hartInterrupt s 3 = some b ∧ (hartPending s 3).getLsbD b = true
         ∧ ((hartPending s 3).getLsbD 11 = true ↔ b = 11))
    ∧ (hartReady up 3 = false ∧ (hartOf up 3).mie = false ∧ hartInterrupt up 3 = none)
    ∧ (∀ x ∈ ([(0x123452B7, .lui 5 0x12345000), (0x008000EF, .jal 1 8), (0xFE209EE3, .branch .ne 1 2 (-4)), (0x002082B3, .alu .add 5 1 (.reg 2)),
          (0x00000073, .ecall), (0x30200073, .mret), (0x30509073, .csr .write 0 0x305 (.reg 1)), (0xC0509073, .csr .write 0 0xC05 (.reg 1))]
          : List (BitVec 32 × RvOp)),
        codeAt (hartOf (before x.1 [] none 0 0) 3) = .bits x.1.toNat ∧ decodeRv x.1.toNat = (some x.2, 4))
    ∧ csrValue (before 0 [] none 0 0) 3 0xC05 = none
    ∧ (codeAt (hartOf (before 0xFFFFFFFF [] none 0 0) 3) = .bits 0xFFFFFFFF ∧ decodeRv 0xFFFFFFFF = (none, 4))
    ∧ ((0x85FF : Word).getLsbD 14 = false ∧ (0xC000 : Word).getLsbD 14 = true ∧ (0x85FF : Word).getLsbD 15 ≠ bit (hrtCtl up 3) 15
      ∧ (0x05FF : Word).getLsbD 15 = bit (hrtCtl up 3) 15)
    ∧ (readsZero (claiming []) .pf0 = false ∧ busAborts (claiming []) .pf0 (0xB4010 + 4 * 3) = false
      ∧ hartSources (claiming []) 3 = 3 :: [] ∧ hartSources up 3 = [] ∧ 3 ∉ (claiming []).ev.active) :=
  ⟨takes_all (by decide +kernel), ⟨rfl, rfl, rfl, rfl, rfl, rfl, rfl⟩, ⟨_, rfl, by decide +kernel⟩, by decide +kernel⟩

/-! Pins, events, life cycle and debug. -/

/-- A machine whose pin groups are powered, with pin 255 in a state. -/
def pinned (x : Pin) : State := { up with pins := { vstat := 0x55555555, pin := [(255, x)] } }

/-- The same with a timed function in PIN_CFG. -/
def timed (x : Pin) : State := { pinned x with regs := [(0xA07FC, 0x2000)] }

/-- A machine with serial unit 31 enabled, with a FIFO state. -/
def serial (x : Serial) : State := { up with regs := [(0xA11F0, 0x8000)], pins := { serial := [(31, x)] } }

theorem witness_PinFunctions :
    TakesAll [(up, .pf0, .pinCfg, 255, 0x2000), (up, .pf0, .pinAux, 255, 3), (up, .pf0, .pinPsel, 0, 31),
      ({ up with vregs := [(0xA0E70, 0x8000)] }, .pf0, .pinPsel, 0, 0)]
    ∧ (let s : State := { timed { switchAfter := some 8 } with clk := { started := true, f1 := 8 } }
       (pinOf s 255).switchAfter = some 8 ∧ s.clk.f1 % 8 = 0 ∧ s.clk.started = true ∧ s.mode.busUp = true
         ∧ cfgFunc (pinCfgReg s 255) = 2 ∧ cfgFunc (pinCfgReg (pinned {}) 255) = 0)
    ∧ (let s : State := { timed { switchAfter := some 8 } with clk := { started := true, f1 := 7 } }
       (pinOf s 255).switchAfter = some 8 ∧ s.clk.f1 < 8)
    ∧ (∀ reg ∈ [Reg.pinSet, .pinClr, .pinTgl], takesB up .pf0 reg 15 0xFFFF = true)
    ∧ (pinPart up 255 = viewPart up .pf0 ∧ pinPart { up with regs := [(0xA00FC, 0x1000)] } 255 ≠ viewPart up .pf0)
    ∧ ((timed {}).Quiet ∧ accepts (timed {}) .pf0 .pinTsel 0 0x80FF ∧ 255 = 0x80FF % 256)
    ∧ (∀ x ∈ [(0, 0), (1, 0), (0, 1)], let s : State := { timed { func := 2, outFifo := [(x.1, true, true)], headAt := x.2 } with
         clk := { started := true, f1 := 1 } }
       (pinOf s 255).outFifo = [(x.1, true, true)] ∧ (pinOf s 255).func = 2 ∧ pinLive s 255 = true ∧ sysNow s = 0
         ∧ s.clk.f1 = 1 ∧ (pinOf s 255).headAt = x.2)
    ∧ (let x := pinOf (pinned { func := 2, aux := 1 }) 255
       true ≠ x.level ∧ pinLive (pinned x) 255 = true ∧ x.func = 2 ∧ x.aux.toNat % 4 = (if true then 1 else 2) ∧ x.inFifo.length < 4
         ∧ groupUp (pinned x) (255 / 16) = true ∧ groupUp up (255 / 16) = false)
    ∧ 4 ≤ (pinOf (pinned { func := 2, aux := 1, inFifo := List.replicate 4 (0, true) }) 255).inFifo.length
    ∧ (let x := pinOf (pinned { func := 7, cfg := 0x0600 }) 255
       true ≠ x.level ∧ pinLive (pinned x) 255 = true ∧ x.func = 7 ∧ fld x.cfg.toNat 11 9 = 3)
    ∧ (accepts (pinned {}) .pf0 .pinTpop 0 255 ∧ accepts { pinned {} with regs := [(0xA00FC, 0x1000)] } .pf0 .pinTpop 0 255) :=
  ⟨takes_all (by decide +kernel), by decide +kernel, by decide +kernel, by decide +kernel, by decide +kernel,
    ⟨⟨rfl, rfl, rfl, rfl, rfl, rfl, rfl⟩, (quiet_of (by decide +kernel)).2, by decide⟩, by decide +kernel, by decide +kernel,
    by decide +kernel, by decide +kernel, (quiet_of (by decide +kernel)).2, (quiet_of (by decide +kernel)).2⟩

theorem witness_SerialUnits :
    TakesAll [(up, .pf0, .pinSctl, 31, 0x8000), (serial {}, .pf0, .pinSctl, 31, 0x8000), (serial {}, .pf0, .pinSctl, 31, 0)]
    ∧ (serialOn (serial {}) 31 = true ∧ serialOn up 31 = false ∧ enabled (serial {}) (unitPart (serial {}) 31) = true)
    ∧ (∀ w ∈ [0x05, 0x105, 0x205, 0xC00, 0x400], takesB (serial {}) .pf0 .pinSdat 31 w = true)
    ∧ (∃ r, regMap.find? (·.reg == .pinSdat) = some r ∧ visible (serial {}) .pf0 r 31 = true ∧ readsZero (serial {}) .pf0 = false
      ∧ busAborts (serial {}) .pf0 (0xA100C + 16 * 31) = false)
    ∧ ((serialOf (serial { rx := [5] }) 31).rx = 5 :: [] ∧ (serialOf (serial { tx := [0x105] }) 31).tx = 0x105 :: []
      ∧ clearToSend (serial { tx := [0x105] }) 31 = true
      ∧ (serialOf (serial {}) 31).rx = [] ∧ (serialOf (serial {}) 31).tx = []) :=
  ⟨takes_all (by decide +kernel), by decide +kernel, by decide +kernel, ⟨_, rfl, by decide +kernel⟩, by decide +kernel⟩

/-- Source 3 pending, routed. -/
def routed (rte : Word) (active : List Nat) (unmasked : List Nat) : State :=
  { up with regs := [(0xB100C, rte)], ev := { pending := [3], active := active }
            host := { rate := 5, fns := [(0, { bme := true, msixEn := true, unmasked := unmasked })] } }

theorem witness_EventController :
    (∀ x ∈ [((0x9005 : Word), 1), (0xB000, 3), (0xC004, 4), (0x8000, 0), (0xA003, 2)], let s := routed x.1 [] [5]
      3 ∈ s.ev.pending ∧ 3 ∉ s.ev.active ∧ bit (evtRte s 3) 15 = true ∧ fld (evtRte s 3) 14 12 = x.2)
    ∧ (reservedSource 3 = false ∧ mayRaise up 3 = true ∧ reservedSource 2047 = true ∧ mayRaise up 1232 = false)
    ∧ (msixOpen (routed 0x9005 [] [5]) 0 5 = true ∧ msixOpen (routed 0x9005 [] []) 0 5 = false ∧ evtOwner (routed 0x9005 [] [5]) 3 = 0)
    ∧ (3 ∈ (routed 0 [3] []).ev.active ∧ bit (evtRte (routed 0 [3] []) 3) 15 = false)
    ∧ ((routed 0 [] []).Quiet ∧ accepts (routed 0 [] []) .pf0 .evtClr 0 3 ∧ evtOwner (routed 0 [] []) 3 = viewPart (routed 0 [] []) .pf0
      ∧ evtOwner { routed 0 [] [] with regs := [(0xB0000, 0x1000)] } 3 ≠ 0)
    ∧ TakesAll [(up, .pf0, .evtRte, 0, 0x9005), (up, .pf0, .evtRte, 1808, 0xB000)] :=
  ⟨by decide +kernel, by decide +kernel, by decide +kernel, by decide +kernel,
    ⟨⟨rfl, rfl, rfl, rfl, rfl, rfl, rfl⟩, (quiet_of (by decide +kernel)).2, by decide +kernel, by decide +kernel⟩,
    takes_all (by decide +kernel)⟩

/-- A request of P0 in service, in a life-cycle state. -/
def asked (code : Nat) (bs : List Byte) (st : LcState) : State :=
  { inWork 0 (mreq code bs.length (some bs) false) 0 with lc := { state := st } }

theorem asked_served (code : Nat) (bs : List Byte) (st : LcState) :
    InService (asked code bs st) 0 (mreq code bs.length (some bs) false) code bs :=
  ⟨by simp [chatyNext, asked, inWork, openReq, tget, mreq], rfl, rfl, rfl, rfl, rfl⟩

/-- A machine whose next commit carries one change. -/
def commitNext (c : Change) (s : State) : State :=
  { s with clk := { started := true }, mode := .m5, regs := [(0xE0000, 0)]
           jrn := { intake := [⟨engRec 0 0 0x16 0 stOk 0 0 0, 1, true, 1, [c]⟩] } }

theorem commits_next (c : Change) (s : State) : CommitsNext (commitNext c s) c := by
  have h : jrnCtl (commitNext c s) = 0 := by simp [jrnCtl, dev, commitNext, tget]
  exact ⟨rfl, rfl, rfl, rfl, by simp [sinkOn, h, bit], ⟨_, rfl, rfl⟩⟩

theorem witness_LifeCycleSteps :
    InService (asked 0x0021 [3] .shipped) 0 (mreq 0x0021 1 (some [3]) false) 0x0021 [3]
    ∧ (stepOf (leVal [3]) = some .seal_ ∧ stepOf (leVal [9]) = none)
    ∧ (∀ x ∈ stepChecks (asked 0x0021 [3] .shipped) .seal_ true, x.1)
    ∧ (∃ q post, stepChecks (asked 0x0021 [3] .raw) .seal_ true = [] ++ (q, 1) :: post ∧ ¬ q)
    ∧ InService (asked 0x0021 [9] .shipped) 0 (mreq 0x0021 1 (some [9]) false) 0x0021 [9]
    ∧ (chatyNext (asking 15 (mreq 0x0021 1 none false)) = some (15, mreq 0x0021 1 none false))
    ∧ CommitsNext (commitNext (.lcStep 0 3 2) up) (.lcStep 0 3 2)
    ∧ (let s : State := { up with lc := { burn := some (.step 30 5), state := .sealed } }
       s.lc.burn = some (.step 30 5) ∧ stepOf 5 = some .return_ ∧ stepTo .return_ s.lc.state = some .returned)
    ∧ (let s : State := { up with lc := { wipe := true }, flash := { status := [(0xB000, 0)] } }
       s.lc.wipe = true ∧ chatyUp s = true ∧ s.clk.started = true ∧ (s.flash.status.map (·.1)).Nodup)
    ∧ (up.lc.wipe = false ∧ up.lc.burn = none) := by
  refine ⟨asked_served _ _ _, by decide, ?_, ⟨_, _, rfl, by decide⟩, asked_served _ _ _, by decide +kernel,
    commits_next _ _, by decide, by decide +kernel, by decide⟩
  simp only [stepChecks, List.forall_mem_cons, List.not_mem_nil, false_imp_iff, implies_true, and_true]
  decide +kernel

/-- A key write or clear of a slot, with zeros for the key. -/
def keyReq (slot op : Byte) : List Byte := [slot, op] ++ List.replicate 38 0

/-- A write of slot 4 with the base point of P-384 for the key. -/
def pointReq : List Byte := [4, 1] ++ List.replicate 6 0 ++ beBytes 48 curveX ++ beBytes 48 curveY

theorem witness_KeysAndChallenges :
    (∀ slot op st, InService (asked 0x0020 (keyReq slot op) st) 0 (mreq 0x0020 40 (some (keyReq slot op)) false) 0x0020 (keyReq slot op))
    ∧ (leVal ((keyReq 4 1).take 1) = 4 ∧ leVal (((keyReq 4 1).drop 1).take 1) = 1 ∧ leVal (((keyReq 4 2).drop 1).take 1) = 2)
    ∧ keySlot { up with lc := { state := .sealed, keys := [(4, [1])] } } 4 ≠ []
    ∧ (validPoint (keyBytes 4 pointReq) = true ∧ validPoint (keyBytes 4 (keyReq 4 1)) = false
      ∧ leVal (pointReq.take 1) = 4 ∧ leVal ((pointReq.drop 1).take 1) = 1)
    ∧ CommitsNext (commitNext (.key 4 none 0) up) (.key 4 none 0)
    ∧ (∀ st, InService (asked 0x0022 [1, 0] st) 0 (mreq 0x0022 2 (some [1, 0]) false) 0x0022 [1, 0])
    ∧ InService (asked 0x0022 [2, 0] .raw) 0 (mreq 0x0022 2 (some [2, 0]) false) 0x0022 [2, 0]
    ∧ (leVal [1, 0] % 8 ≠ 0 ∧ Nat.testBit (leVal [1, 0]) 1 = false ∧ Nat.testBit (leVal [2, 0]) 1 = true
      ∧ testAllowed up = false ∧ testAllowed (inMode .m2) = true)
    ∧ TakesAll [(up, .pf0, .dbgCcmd, 0, 0x8001), (inMode .m4, .pf0, .dbgCcmd, 0, 0x8002),
      ({ inMode .m4 with lc := { state := .sealed } }, .pf0, .dbgCcmd, 0, 0x8007), (up, .pf0, .dbgCcmd, 0, 0)]
    ∧ (let s : State := { up with lc := { chal := some ⟨0, 1, 0, 5⟩ }, clk := { f1 := 5 } }
       s.lc.chal = some ⟨0, 1, 0, 5⟩ ∧ 5 ≤ s.clk.f1 ∧ up.clk.f1 < 5) :=
  ⟨fun _ _ _ => asked_served _ _ _, by decide +kernel, by decide, by decide +kernel, commits_next _ _, fun _ => asked_served _ _ _, asked_served _ _ _,
    by decide +kernel, takes_all (by decide +kernel), by decide +kernel⟩

theorem witness_DebugResponses :
    (up.Quiet ∧ accepts up .pf0 .dbgRdat 0 5 ∧ accepts up .pf0 .dbgRcmd 0 0x8000)
    ∧ TakesAll [(up, .pf0, .dbgRcmd, 0, 0x4000), (up, .pf0, .dbgCtl, 0, 0x8000)]
    ∧ InService (asked 0x0023 [1] .raw) 0 (mreq 0x0023 1 (some [1]) false) 0x0023 [1]
    ∧ (let s : State := { up with lc := { chal := some ⟨0, 1, 0, 0⟩, intake := [(.view .pf0, [1]), (.mgmt, [2])] } }
       s.lc.chal = some ⟨0, 1, 0, 0⟩ ∧ s.lc.checking = none ∧ s.lc.intake ≠ [])
    ∧ (let s : State := { up with lc := { intake := [(.mgmt, [2])] } }
       s.lc.chal = none ∧ s.lc.intake = [(.mgmt, [2])])
    ∧ (let s : State := { up with lc := { checking := some (.mgmt, [2], ⟨0, 1, 0, 0⟩) } }
       s.lc.checking = some (.mgmt, [2], ⟨0, 1, 0, 0⟩) ∧ s.lc.granting = none ∧ s.jrn.intake = [] ∧ s.jrn.waiting = []
         ∧ ∃ q post, responseChecks s [2] ⟨0, 1, 0, 0⟩ true = [] ++ (q, 2) :: post ∧ ¬ q)
    ∧ (∀ bs : List Byte, bs.length = 96 → signatureGood Config.debugKey (chalBytes ⟨0, 1, 0, 0⟩) bs = true →
        ∀ x ∈ responseChecks up bs ⟨0, 1, 0, 0⟩ true, x.1)
    ∧ (let s := commitNext (.grant 1) { up with lc := { granting := some (.mgmt, 1) } }
       CommitsNext s (.grant 1) ∧ s.lc.granting = some (.mgmt, 1) ∧ needsToken s 1 = false)
    ∧ (let s := commitNext (.grant 2) { up with lc := { granting := some (.mgmt, 2), state := .sealed, tokens := [(0, 0xFFFF)] } }
       CommitsNext s (.grant 2) ∧ needsToken s 2 = true ∧ tokenWord s = some 1)
    ∧ (let s := commitNext (.token 15) { up with lc := { granting := some (.mgmt, 2) } }
       CommitsNext s (.token 15) ∧ s.lc.granting = some (.mgmt, 2) ∧ s.flash.op = none ∧ s.lc.burn = none)
    ∧ (let s : State := { up with lc := { granting := some (.mgmt, 2), burn := some (.token 15) } }
       s.lc.granting = some (.mgmt, 2) ∧ s.lc.burn = some (.token 15)) := by
  refine ⟨⟨up_quiet, (quiet_of (by decide +kernel)).2, (quiet_of (by decide +kernel)).2⟩, takes_all (by decide +kernel),
    asked_served _ _ _, by decide, by decide, ⟨rfl, rfl, rfl, rfl, _, _, rfl, fun h => absurd h.1 (by decide)⟩, ?_,
    ⟨commits_next _ _, rfl, by decide +kernel⟩, ⟨commits_next _ _, by decide +kernel, by decide +kernel⟩,
    ⟨commits_next _ _, rfl, rfl, rfl⟩, ⟨rfl, rfl⟩⟩
  intro bs h1 h2
  simp only [responseChecks, List.forall_mem_cons, List.not_mem_nil, false_imp_iff, implies_true, and_true]
  exact ⟨⟨h1, h2⟩, by decide +kernel⟩

/-! Journal, capture, probes, flash and user clock edges. -/

/-- A machine whose intake holds one entry; JRN_CTL, the share of P0 and the ring as given. -/
def journaling (ctl share : Word) (e : JEntry) (ring : List RingRec) : State :=
  { up with regs := [(0xE0000, ctl), (0xE0100, share)], jrn := { intake := [e], ring := ring } }

/-- A record's entry with one change. -/
def jentry (refusable : Bool) (c : Change) : JEntry := ⟨engRec 0 0 0x16 0 stOk 0 0 0, 1, refusable, 1, [c]⟩

/-- A committed record of P0 that no sink has taken. -/
def ringRec (reserved : Bool) : RingRec := ⟨5, 0, 0, reserved, false, false, false⟩

/-- A machine with a record to spill. -/
def spilling (used : Nat) (ready : Bool) (op : Option FlashOp) : State :=
  { up with regs := [(0xE0000, 0x4000)], jrn := { ring := [ringRec false] }
            flash := { curUsed := used, nextReady := ready, op := op, suspended := op.isSome } }

theorem witness_JournalSinks :
    (let s := journaling 0 0 (jentry false .done) []
     s.clk.started = true ∧ s.mode.busUp = true ∧ s.jrn.missedCount = 0 ∧ s.jrn.waiting = [] ∧ s.jrn.intake = jentry false .done :: []
       ∧ sinkOn s = false)
    ∧ (let s := journaling 0x8000 0 (jentry true (.reg .pf0 0xD1000 5)) []
       s.jrn.waiting = [] ∧ sinkOn s = true ∧ 0xD1000 ≠ 0x4030C ∧ s.side.acc.inProgress = false ∧ s.tap.acc.inProgress = false
         ∧ jrnShare s 0 < shareUsed s 0 + 1 ∧ View.hart 3 ∈ viewsOf s 0)
    ∧ (∀ n ∈ [0, 63, 64], let s := journaling 0x8000 0 (jentry false .done) (List.replicate n (ringRec true))
       sinkOn s = true ∧ (jentry false .done).record.kind ≠ 5 ∧ (jentry false .done).record.kind ≠ 7
         ∧ reservedUsed s = n ∧ s.jrn.ring.length < ringPlaces ∧ jrnShare s 0 ≤ shareUsed s 0)
    ∧ (∀ x ∈ [(0, 0, 64), (0x8000, 1, 64), (0x8000, 0, 63)],
       let s : State := { up with regs := [(0xE0000, BitVec.ofNat 16 x.1), (0xE0100, BitVec.ofNat 16 x.2.1)]
                                  jrn := { missedCount := 1, ring := List.replicate x.2.2 (ringRec true) } }
       s.jrn.missedCount ≠ 0 ∧ (sinkOn s = false ∨ shareUsed s 0 < jrnShare s 0 ∨ (reservedUsed s < 64 ∧ s.jrn.ring.length < ringPlaces)))
    ∧ (let b : JBuf := ⟨3, 7, 1, 0x1000, [(5, 0)], 0⟩
       b.recs ≠ [] ∧ b.cap ≤ b.recs.length ∧ b.ring < deadRing)
    ∧ (let s : State := { up with clk := { started := true, f1 := 0x0A000000 }, jrn := { buffers := [⟨3, 7, 8, 0, [(5, 0)], 0⟩] } }
       jrnCtl s % 256 ≠ 0 ∧ 0 + jrnCtl s % 256 * 600000 ≤ s.clk.f1)
    ∧ (∀ s ∈ [spilling 0 false none, spilling 5 false none, spilling 127 false none, spilling 128 true none,
          spilling 0 false (some (.erase 9 0 none none)), spilling 128 true (some (.erase 9 0 none none))],
        spillNext s = some (ringRec false) ∧ chatyUp s = true ∧ s.lc.burn = none ∧ (s.flash.op = none ∨ s.flash.suspended = true)
          ∧ (s.flash.curUsed < 128 ∨ s.flash.nextReady = true))
    ∧ (spillNext (spilling 128 false none) = some (ringRec false) ∧ spillReady (spilling 128 false none) = false) := by
  decide +kernel

/-- A machine with a capture of a scope. -/
def capturing (k : Nat) (c : Cap) : State := { up with cap := { scopes := [(k, c)] } }

theorem witness_CaptureAndProbes :
    TakesAll [(up, .pf0, .dbgCapcmd, 0, 0x4000), (upSession, .pf0, .dbgCapcmd, 0, 0x6000), (up, .pf0, .dbgCapcmd, 0, 0x5000),
      (capturing 0 (.armed 4 none), .pf0, .dbgCapcmd, 0, 0x8000), ({ upSession with cap := { scopes := [(16, .frozen 4)] } }, .pf0, .dbgCapcmd, 0, 0xA000),
      ({ upSession with cap := { scopes := [(16, .resuming 4 6)] } }, .pf0, .dbgCapcmd, 0, 0xA000), (up, .pf0, .dbgPrgn, 0, 383), (up, .pf0, .dbgPline, 3, 0x8005)]
    ∧ (fld 0x4000 15 14 = 1 ∧ fld 0x6000 15 14 = 1 ∧ fld 0xA000 15 14 = 2 ∧ (0x6000 : Word).getLsbD 13 = true
      ∧ viewPart up .pf0 = 0)
    ∧ (∀ k ∈ [0, 15, 16], let s := capturing k (.armed 0 (some 0))
       capOf s k = some (.armed 0 (some 0)) ∧ s.mode = .m5 ∧ 0 ≤ s.clk.f1 ∧ s.clk.k < s.clk.slotLen ∧ (some 0).getD 0 ≤ sysNow s)
    ∧ (capOf (capturing 15 (.armed 1 none)) 15 = some (.armed 1 none) ∧ (capturing 15 (.armed 1 none)).clk.f1 < 1)
    ∧ (∀ k ∈ [0, 15, 16], let s := capturing k (.resuming 0 0)
       capOf s k = some (.resuming 0 0) ∧ 0 ≤ s.clk.f1 + 1 ∧ s.clk.f1 % 8 = 0 % 8
         ∧ s.clk.k < s.clk.slotLen)
    ∧ (capOf (capturing 16 (.resuming 3 0)) 16 = some (.resuming 3 0) ∧ (capturing 16 (.resuming 3 0)).clk.f1 % 8 ≠ 3 % 8) :=
  ⟨takes_all (by decide +kernel), by decide +kernel⟩

/-- The bytes of a flash request: AREA, OP, OFF (one byte), LEN (one byte), data. -/
def flBits (area op off2 len : Byte) (data : List Byte) : List Byte :=
  [area, op, 0, 0, 0, off2, 0, 0, len, 0, 0, 0, 0, 0, 0, 0] ++ data

theorem witness_FlashRequests_served (code : Nat) (bs : List Byte) :
    InService (asked code bs .raw) 0 (mreq code bs.length (some bs) false) code bs := asked_served _ _ _

theorem checks_of {s : State} {p : Nat} {r : FlReq} {n : Nat} {okOp form : Prop}
    (h : okOp ∧ form ∧ r.area ≤ 3 ∧ (r.area = 0 ∨ p = 0) ∧ r.off + n ≤ (areaOf s p r.area).2 ∧ s.flash.factoryBad = []
      ∧ s.flash.runtimeBad = [] ∧ s.flash.pendingBlocks = [] ∧ s.lc.wipe = false) :
    ∀ x ∈ flashChecks s p r n okOp form, x.1 := by
  obtain ⟨h1, h2, h3, h4, h5, h6, h7, h8, h9⟩ := h
  simp only [flashChecks, List.forall_mem_cons, List.not_mem_nil, false_imp_iff, implies_true, and_true]
  exact ⟨⟨h1, h3, h4⟩, fun _ k _ => by simp [badBlock, h6, h7], ⟨h2, h5⟩, fun _ => h9, fun _ k _ _ => by simp [h8]⟩

/-- The same with flash state of its own. -/
def flashed (code : Nat) (bs : List Byte) (f : Flash) : State := { asked code bs .raw with flash := f }

theorem witness_FlashRequests :
    (∀ code bs f, InService (flashed code bs f) 0 (mreq code bs.length (some bs) false) code bs)
    ∧ (∃ q post, flashChecks (flashed 0x0010 (flBits 0 1 0 2 []) {}) 0 (flHead (flBits 0 1 0 2 [])) 2 ((flHead (flBits 0 1 0 2 [])).op = 0)
        (readForm (flHead (flBits 0 1 0 2 []))) = [] ++ (q, stDenied, 1) :: post ∧ ¬ q)
    ∧ (∀ x ∈ flashChecks (flashed 0x0010 (flBits 0 0 0 2 []) {}) 0 (flHead (flBits 0 0 0 2 [])) 2
        ((flHead (flBits 0 0 0 2 [])).op = 0) (readForm (flHead (flBits 0 0 0 2 []))), x.1)
    ∧ (∀ x ∈ flashChecks (flashed 0x0011 (flBits 1 0 0 2 [3, 4]) {}) 0 (flHead (flBits 1 0 0 2 [3, 4])) 2
        ((flHead (flBits 1 0 0 2 [3, 4])).op = 0 ∧ (flHead (flBits 1 0 0 2 [3, 4])).area ≠ 3)
        (progForm (flHead (flBits 1 0 0 2 [3, 4])) ((flBits 1 0 0 2 [3, 4]).drop 16)), x.1)
    ∧ (∀ y ∈ [((1 : Byte), 4096), (2, 65536), (3, 65536)],
        ∀ x ∈ flashChecks (flashed 0x0012 (flBits 0 y.1 0 0 []) {}) 0 (flHead (flBits 0 y.1 0 0 [])) y.2
        ((flHead (flBits 0 y.1 0 0 [])).area ≠ 3) (unitForm (flHead (flBits 0 y.1 0 0 [])) y.2), x.1)
    ∧ (4 + (flHead (flBits 0 0 0 2 [])).len ≤ (mreq 0x0010 16 (some []) false).rspLen)
    ∧ (let s := flashed 0x0010 (flBits 0 0 0 2 []) { op := some (.erase 0xB000 0 none none) }
       s.flash.op = some (.erase 0xB000 0 none none) ∧ (areaOf s 0 0).1 < 4096 * (0xB000 + 1) ∧ 4096 * 0xB000 < (areaOf s 0 0).1 + 2)
    ∧ (∀ i, i < 1 → goodWord (flashed 0x0010 (flBits 0 0 0 2 []) {}) (0x0B000000 + 2 * i))
    ∧ ¬ goodWord (flashed 0x0010 (flBits 0 0 0 2 []) { status := [(0xB000, 0x7FFF)] }) 0x0B000000
    ∧ (halfErased (flashed 0x0011 [] { status := [(0xB000, 0x7FFF)] }) 0xB000 = true ∧ halfErased (flashed 0x0011 [] {}) 0xB000 = false)
    ∧ (flWord (flashed 0x0011 [] { data := [(0, 0)] }) 0 ≠ 0xFFFF ∧ flWord (flashed 0x0011 [] {}) 0 = 0xFFFF)
    ∧ ((flHead (flBits 0 1 0 0 [])).op = 1 ∧ (flHead (flBits 0 4 0 0 [])).op ≠ 1 ∧ (flHead (flBits 0 4 0 0 [])).op ≠ 2
      ∧ (flHead (flBits 0 4 0 0 [])).op ≠ 3)
    ∧ ((flashed 0x0012 [] {}).dram.deferred = [] ∧ (flashed 0x0012 [] {}).lc.burn = none
      ∧ (flashed 0x0012 [] { runtimeBad := List.range 512 }).flash.runtimeBad.length = 512) := by
  refine ⟨fun _ _ _ => ⟨by simp [chatyNext, flashed, asked, inWork, openReq, tget, mreq], rfl, rfl, rfl, rfl, rfl⟩,
    ⟨_, _, rfl, by decide⟩, checks_of (by simp only [readForm]; decide +kernel), checks_of (by simp only [progForm]; decide +kernel), ?_,
    by decide +kernel, by decide +kernel,
    by simp only [goodWord]; decide +kernel, by simp only [goodWord]; decide +kernel, by decide +kernel⟩
  intro y hy
  simp only [List.mem_cons, List.not_mem_nil, or_false] at hy
  rcases hy with rfl | rfl | rfl <;> exact checks_of (by simp only [unitForm]; decide +kernel)

/-- A machine whose flash erases. -/
def erasing (op : FlashOp) (now ran : Nat) (susp : Bool) : State :=
  { spilling 0 true none with clk := { started := true, f1 := now }
                              flash := { op := some op, ran := ran, suspended := susp, pendingBlocks := [4] } }

theorem witness_FlashErases :
    (∀ now ∈ [0, 4800000], ∀ op ∈ [FlashOp.erase 0xB000 15 (some 0) none, .erase 0xB000 0 (some 0) none, .erase 0xB04F 0 none (some 4),
        .erase 0x13001 0 none none],
      let s := erasing op now 0 false
      s.flash.op = some op ∧ s.flash.suspended = false ∧ eraseTime s ≤ 4800000 ∧ s.flash.pendingBlocks = [4])
    ∧ (let s := erasing (.erase 0x13001 0 none none) 0 0 false
       0x13001 = 0x13000 + s.flash.nextSector ∧ s.flash.nextSector < 512)
    ∧ (let s := erasing (.erase 0xB000 0 (some 0) none) 4800000 0 false
       4800000 ≤ eraseTime s ∧ s.flash.runtimeBad.length < 512 ∧ s.lc.burn = none)
    ∧ 512 ≤ ({ flash := { runtimeBad := List.range 512 } } : State).flash.runtimeBad.length
    ∧ (4800000 < eraseTime (erasing (.erase 0 0 none none) 4800001 0 false) ∧ eraseTime (erasing (.erase 0 0 none none) 5 0 false) < 4800000)
    ∧ (let s := erasing (.erase 0 0 none none) 300000 0 false
       s.flash.suspended = false ∧ spillNext s ≠ none ∧ s.flash.curUsed < 128 ∧ s.flash.since + 300000 ≤ s.clk.f1)
    ∧ (let s := erasing (.erase 0 0 none none) 5 0 false
       s.flash.op = some (.erase 0 0 none none) ∧ s.clk.f1 < s.flash.since + 300000)
    ∧ (let s := erasing (.erase 0 0 none none) 600000 300000 true
       s.flash.suspended = true ∧ s.flash.since + 600000 ≤ s.clk.f1)
    ∧ (let s := erasing (.erase 0 0 none none) 5 300000 true
       s.flash.suspended = true ∧ s.flash.curUsed < 128 ∧ s.clk.f1 < s.flash.since + 600000) := by decide +kernel

/-- A machine whose harts are all OFF before an edge, with element registers and a product on its way in region 0. -/
def beforeEdge : State :=
  { up with fab := { fab1 with mac := [(siteKey 0 2, { pend := [(2, 7)] })] }, clk := { started := true, f1 := 1 } }

/-- Hart 3 waits for a load that bank 0 has served, with the word 0x00000013 (ADDI x0, x0, 0) at its pc. -/
def loadServed : State :=
  { up with bank := { done := [⟨9, 5, 1, stOk, [1, 2, 3, 4]⟩] }
            hart3 := { state := .run, wait := some (.load 31 4 true false 9), pc := 0x40000000
                       prefetch := [(0x40000000, some 0x00000013)] } }

theorem still_of (s : State) (which : Nat → Bool)
    (h : (List.range 4).all (fun g => !which g || ((hartOf s g).state == .off && (hartOf s g).store.isEmpty)) = true) :
    s.still fun g => which g = true := by
  intro g hg hw
  have h := List.all_eq_true.mp h g (List.mem_range.mpr hg)
  simp only [hw, Bool.not_true, Bool.false_or, Bool.and_eq_true, beq_iff_eq, List.isEmpty_iff] at h
  exact h

theorem witness_UserClockEdges :
    (State.reset.clk.started = false ∧ edgeHolds { up with clk := { started := true, boundaryDue := true } } = true
      ∧ edgeHolds (capturing 15 (.armed 0 none)) = true ∧ edgeHolds { up with pwr := { waiting := true } } = true
      ∧ ({ up with clk := { started := true, k := 131072, slotLen := 131072 } } : State).clk.slotLen ≤ 131072)
    ∧ (let s := beforeEdge
       let u := fspBefore (cycleEnd s)
       s.clk.started = true ∧ s.mode.busUp = true ∧ edgeHolds s = false ∧ s.clk.k < s.clk.slotLen ∧ s.pwr.entry = none
         ∧ 0 ∈ runningRegions u ∧ 1 ∉ runningRegions u
         ∧ (s.clk.f1 + 1) % domPeriod (fld (ctrlOf s.fab.active 0 0 0 0) 15 14) = 0
         ∧ Table.wf {} u.fab.mac = true ∧ (macOf u 0 2).pend = [(s.clk.f1 + 1, 7)])
    ∧ (let s : State := { beforeEdge with clk := { started := true, f1 := 2 } }
       (s.clk.f1 + 1) % domPeriod (fld (ctrlOf s.fab.active 0 0 0 0) 15 14) ≠ 0)
    ∧ ((beforeEdge).still fun _ => True)
    ∧ (let s : State := { siteOnes with fab := { siteOnes.fab with captured := [0] } }
       let u : State := { siteOnes with fab := { siteOnes.fab with captured := [12] } }
       sitesDue s = [12] ∧ sitesDue u = [0] ∧ sitesDue { s with fab := { s.fab with captured := [0, 12] } } = []
         ∧ ((sitePins s 0 12).map (·.getLsbD 33)) = some true ∧ (sitePins u 0 0).isSome = true)
    ∧ (sitesDue siteZero = [12] ∧ (sitePins siteZero 0 12).map (·.getLsbD 33) = some false)
    ∧ (loadServed.still fun g => g ≠ 3)
    ∧ (let s := loadServed
       edgeDue s = true ∧ s.pwr.entry = none ∧ gated s = false ∧ (hartOf s 3).store = [] ∧ hartRuns s 3 = true ∧ (hartOf s 3).state = .run ∧ (hartOf s 3).mie = false
         ∧ s.qe.xfers = [] ∧ s.qe.fsp = [] ∧ s.host.dma = [] ∧ s.bank.waiting = [] ∧ s.bank.done = [⟨9, 5, 1, stOk, [1, 2, 3, 4]⟩]
         ∧ 1 ≤ s.clk.f1 + 1 ∧ (hartOf s 3).wait = some (.load 31 4 true false 9)
         ∧ (hartOf s 3).prefetch = [((hartOf s 3).pc, some 0x00000013)] ∧ (hartOf s 3).pc.toNat % 4 = 0
         ∧ decodeRv 0x13 = (some (.alu .add 0 0 (.imm 0)), 4)) := by
  refine ⟨by decide +kernel, by decide +kernel, by decide +kernel, ?_, by decide +kernel, by decide +kernel, ?_, by decide +kernel⟩
  · exact fun g hg _ => still_of beforeEdge (fun _ => true) (by decide +kernel) g hg rfl
  · intro g hg h
    exact still_of loadServed (fun g => g != 3) (by decide +kernel) g hg (by simpa using h)

end Sys2Proof.Tests
end

section
/-! PROOF. The register interface: locations that no register has (R36), and two-word registers (R44). -/

namespace Sys2Proof.Proofs.RegisterInterface

open Sys2Proof.Machine Sys2Proof.Laws

/-! ### Locations that no register has (R36) -/

section Reserved

variable {s : State} {off : Nat} (hf : findReg off = none)
include hf

theorem peek_reserved (v : View) : peek s v off = 0 := by simp only [peek, hf]

theorem readEffect_reserved (v : View) : readEffect s v off = s := by simp only [readEffect, hf]

theorem busAborts_reserved (v : View) : busAborts s v off = false := by simp only [busAborts, hf]

theorem serveWrite_reserved (v : View) (be : BitVec 4) (val : Word) : serveWrite s v off be val = (s, some stOk) := by
  simp only [serveWrite, hf]

theorem busWrite_reserved (hq : s.Quiet) (v : View) (be : BitVec 4) (val : Word) :
    busWrite s v off be val = (s, some stOk) := by
  simp [busWrite, hq.busUp, settle_quiet hq, busAborts_reserved hf, serveWrite_reserved hf]

theorem busRead_reserved (hq : s.Quiet) (v : View) : busRead s v off = (stOk, 0, s) := by
  simp [busRead, hq.busUp, settle_quiet hq, busAborts_reserved hf, peek_reserved hf, readEffect_reserved hf]

end Reserved

theorem openSide_quiet {s : State} (hq : s.Quiet) : openSide s = s.opened := by
  simp only [openSide, settle_quiet hq]
  rfl

/-- What an open transaction has put on SIDE_MISO leaves the bus as quiet as it was. -/
theorem quiet_opened_emit {s : State} (hq : s.Quiet) (o : Out) : (emit s.opened o).Quiet :=
  ⟨hq.started, hq.busUp, hq.intake, hq.waiting, hq.missed, hq.side, hq.tap⟩

/-- A side-port READ of a location that no register has returns OK and 0x0000 (R36, R50). -/
theorem sideRead_reserved {s : State} {off : Nat} (hf : findReg off = none) (hq : s.Quiet) :
    sideRead s off = { s with
      side := { s.side with selected := true, acc := ⟨true, false, off, 0, stOk, false⟩ }
      outs := s.opened.outs ++ [.misoWait, .miso [0x00, 0x00, 0x00]] } := by
  simp only [sideRead, openSide_quiet hq, busRead_reserved hf (quiet_opened_emit hq .misoWait)]
  simp only [emit, List.append_assoc]
  rfl

/-! ### Holding registers (R44) -/

/-- The bus serves the write of a _HI register: the view's holding register takes the value (R44). -/
theorem hiWrite_eq {s : State} {v : View} {off : Nat} {r : RegRow} {i : Nat} {stg : Bool} (val : Word) (hq : s.Quiet)
    (hf : findReg off = some (r, i, stg)) (hb : busAborts s v off = false) (hh : r.half = .hi)
    (hv : visible s v r i = true) (hro : readOnly s v r = false) :
    exec (.hiWrite v off val) s = .next { s with hold := tset 0 s.hold (viewKey (viewCode v) off) val } := by
  show execHiWrite v off val s = _
  simp [execHiWrite, busWrite, serveWrite, hf, hh, hq.busUp, settle_quiet hq, hb, hv, hro]

/-- The registers whose write commits two words. -/
def loRegs : List Reg :=
  [.mbxSelLo, .cfgSwpfrmLo, .qeQselLo, .qeMigrateLo, .timLdsecLo, .timPgfrmLo, .timAidxLo, .memScrpassLo, .memRetireLo,
    .flsUqLo, .pwrAlarmLo]

theorem loRow_mem : ∀ r ∈ regMap, r.half = .lo → r.reg ∈ loRegs := by decide +kernel

/-! What keeps the holding registers as they are. -/

@[simp] theorem raiseEv_hold (s : State) (n : Nat) : (raiseEv s n).hold = s.hold := by
  obtain ⟨e, o, h⟩ := raiseEv_eq s n
  rw [h]

@[simp] theorem finishWrite_hold (s : State) (v : View) (st : Nat) : (finishWrite s v st).hold = s.hold := by
  cases v with
  | side =>
    simp only [finishWrite]
    split
    · split <;> rfl
    · rfl
  | jtag =>
    simp only [finishWrite]
    split <;> rfl
  | _ => rfl

@[simp] theorem mbxSelect_hold (s : State) (v : View) (val : Nat) : (mbxSelect s v val).hold = s.hold := rfl

@[simp] theorem queueApply_hold (s : State) (q c : Nat) : (queueApply s q c).hold = s.hold := rfl

@[simp] theorem aidxApply_hold (s : State) (v : View) (val : Nat) : (aidxApply s v val).hold = s.hold := by
  simp only [aidxApply]

@[simp] theorem drainIfEmpty_hold (s : State) (q : Nat) : (drainIfEmpty s q).hold = s.hold := by
  unfold drainIfEmpty
  split
  · split
    · exact raiseEv_hold ..
    · rfl
  · rfl

@[simp] theorem migrateReg_hold (s : State) (v : View) (q : Nat) : (migrateReg s v q).hold = s.hold := by
  simp only [migrateReg, migrate]
  split
  · exact drainIfEmpty_hold ..
  · rfl

@[simp] theorem memRetireApply_hold (s : State) (val : Nat) : (memRetireApply s val).hold = s.hold := by
  unfold memRetireApply
  split <;> rfl

@[simp] theorem startErase_hold (s : State) (sec more : Nat) (p quota : Option Nat) :
    (startErase s sec more p quota).hold = s.hold := by
  simp only [startErase]
  split <;> rfl

@[simp] theorem deferTask_hold (s : State) (a : Activity) : (deferTask s a).hold = s.hold := by
  unfold deferTask
  split <;> rfl

@[simp] theorem nextQuota_hold (s : State) : (nextQuota s).hold = s.hold := by
  simp only [nextQuota]
  split
  · rfl
  · split
    · exact startErase_hold ..
    · exact deferTask_hold ..

@[simp] theorem quotaApply_hold (s : State) (p val : Nat) : (quotaApply s p val).hold = s.hold := by
  unfold quotaApply
  extract_lets b n t moved fresh idle fl t'
  split
  · exact nextQuota_hold t'
  · rfl

@[simp] theorem storePair_hold (s : State) (r : RegRow) (i : Nat) (v : View) (val : Nat) :
    (storePair s r i v val).hold = s.hold := by
  simp only [storePair]
  cases r.store <;> rfl

@[simp] theorem setStored_hold (s : State) (r : RegRow) (i : Nat) (v : View) (x : Word) :
    (setStored s r i v x).hold = s.hold := by
  unfold setStored
  cases r.store <;> rfl

@[simp] theorem storeApply_hold (s : State) (v : View) (r : RegRow) (i val : Nat) :
    (storeApply s v r i val).hold = s.hold := by
  simp only [storeApply]
  split
  · rfl
  · rfl
  · exact setStored_hold ..
  · split
    · exact storePair_hold ..
    · exact setStored_hold ..

/-- A two-word commit leaves every holding register its contents (R44). -/
theorem regApply_lo_hold (s : State) (v : View) {r : RegRow} (i n : Nat) (h : r.reg ∈ loRegs) :
    (regApply s v r i n).hold = s.hold := by
  simp only [loRegs, List.mem_cons, List.not_mem_nil, or_false] at h
  rcases h with h | h | h | h | h | h | h | h | h | h | h <;> simp [regApply, h]

/-! ### The commit of both words (R44) -/

theorem registerWrite_eq_writeReg {s : State} {v : View} {reg : Reg} {r : RegRow} {i : Nat} (val : BitVec 32)
    (hr : rowOf reg = some r) (hi : i < r.count) :
    exec (.registerWrite v (r.off i) 0xF val) s = .next (writeReg reg i v val.toNat s) := by
  show execRegisterWrite v (r.off i) 0xF val s = _
  simp only [execRegisterWrite, writeReg, regOffset_of_row hr hi]

theorem fullValue_lo {s : State} {v : View} {r : RegRow} {i k : Nat} (hh : r.half = .lo) :
    fullValue s v r i (BitVec.ofNat 16 k) = (holding s v (r.off i - 4)).toNat * 65536 + k % 65536 := by
  simp [fullValue, hh]

/-- A _LO write that is accepted brings the holding register's contents and its own value as one value (R44). -/
theorem loWrite_accept {s : State} {v : View} {reg : Reg} {r : RegRow} {i n : Nat} {val : BitVec 32} (hq : s.Quiet)
    (hr : rowOf reg = some r) (hh : r.half = .lo)
    (hn : n = (holding s v (r.off i - 4)).toNat * 65536 + val.toNat % 65536) (ha : accepts s v reg i n) :
    exec (.registerWrite v (r.off i) 0xF val) s = .next (acceptWrite s v r i n).1 := by
  obtain ⟨r', hr', hi, hv, hro, hc, hb⟩ := ha
  obtain rfl : r' = r := Option.some.inj (hr'.symm.trans hr)
  have hn : fullValue s v r' i (BitVec.ofNat 16 val.toNat) = n := (fullValue_lo hh).trans hn.symm
  rw [registerWrite_eq_writeReg val hr hi, writeReg_accept hq hr hi hv hro (by simp [hh]) (hn ▸ hc) hb, hn]

/-- s with one entry alone in the intake, and its queue engine as given. -/
def withEntry (s : State) (e : JEntry) (q : Engine) : State :=
  { s with jrn := { s.jrn with intake := [e] }, qe := q }

/-- An accepted write of a journaled register leaves its record alone in the intake, and changes nothing else but, for
QE_MIGRATE, what QE_MIGSTAT shows (R235, R394). -/
theorem acceptWrite_record {s : State} {v : View} {r : RegRow} {i n : Nat} (hq : s.Quiet)
    (hj : journaling r n = .write) : ∃ e q,
      (acceptWrite s v r i n).1 = withEntry s e q ∧ e.record.part = viewPart s v ∧ e.refusable = true ∧ e.need = 1
        ∧ e.changes = [.reg v (r.off i) n] := by
  simp only [acceptWrite, hj, journal_first hq]
  split
  · exact ⟨_, _, rfl, rfl, rfl, rfl, rfl⟩
  · exact ⟨_, s.qe, rfl, rfl, rfl, rfl, rfl⟩

/-- With the record of an accepted write, the commit does what the register's write does (R43, R394). -/
theorem acceptWrite_commit {s : State} {v : View} {reg : Reg} {r : RegRow} {i n : Nat} (hq : s.Quiet)
    (hroom : s.room (viewPart s v)) (hr : rowOf reg = some r) (hi : i < r.count) (hj : journaling r n = .write) :
    ∃ t j, (acceptWrite s v r i n).1 = t ∧ t.hold = s.hold
      ∧ exec .journalCommit t = .next (finishWrite (regApply { t with jrn := j } v r i n) v stOk) := by
  obtain ⟨e, q, ht, hp, hre, hne, hc⟩ := acceptWrite_record (i := i) hq hj
  have hroom' : (withEntry s e q).room e.record.part := hp ▸ hroom
  obtain ⟨j, hstep, -⟩ := journalStep_one (s := withEntry s e q) rfl hq.waiting hq.missed hroom' hre hne hc
  refine ⟨_, j, ht, rfl, ?_⟩
  have hw : writerRuns (withEntry s e q) = true := by simp [writerRuns, withEntry, hq.started, hq.busUp]
  show execJournalCommit _ = _
  rw [execJournalCommit, if_pos hw, hstep]
  simp only [applyChange, writeCommitted, if_true, findReg_of_row hr hi]

/-! ### The obligations -/

/-- Settles O6: neither the bus nor the side port finds a register there, so nothing is left to read or to change. -/
theorem reservedLocations : Obligations.ReservedLocations := by
  unfold Obligations.ReservedLocations
  intro s off hf
  refine ⟨peek_reserved hf, fun hq v be val => ?_, fun hq hh => ?_⟩
  · show execRegisterWrite v off be val s = _
    rw [execRegisterWrite, busWrite_reserved hf hq]
  · have hx : exec (.sideRead off) s = .next (sideRead s off) := by
      show execSideRead off s = _
      simp [execSideRead, hh, hq.busUp]
    rw [sideRead_reserved hf hq] at hx
    exact ⟨_, hx, rfl, rfl, rfl⟩

/-- Settles O7: the table of holding registers changes by a _HI write alone, and a _LO write takes the word held there
as the upper half of its value. -/
theorem twoWordWrites : Obligations.TwoWordWrites := by
  unfold Obligations.TwoWordWrites
  refine ⟨?hi, ?lo, fun _ _ => rfl⟩
  case hi =>
    intro s v off r i stg val hq hf hb hh hv hro
    exact ⟨_, hiWrite_eq val hq hf hb hh hv hro, tget_tset_same .., fun w o h => tget_tset_ne _ _ _ _ h, rfl⟩
  case lo =>
    intro s v reg r i val n hr hh hn
    have hlo : r.reg ∈ loRegs := loRow_mem r (List.mem_of_find?_eq_some hr) hh
    refine ⟨?_, fun hq ha hj => ⟨?_, regApply_lo_hold s v i n hlo⟩⟩
    · rintro ⟨hq, hroom, ha⟩ hj
      have hx := loWrite_accept hq hr hh hn ha
      obtain ⟨r', hr', hi, -⟩ := ha
      obtain rfl : r' = r := Option.some.inj (hr'.symm.trans hr)
      obtain ⟨t, j, rfl, ht, hu⟩ := acceptWrite_commit hq hroom hr hi hj
      exact ⟨_, j, _, hx, hu, rfl, ht, by rw [finishWrite_hold, regApply_lo_hold _ _ _ _ hlo]; exact ht⟩
    · rw [loWrite_accept hq hr hh hn ha]
      simp only [acceptWrite, hj]

end Sys2Proof.Proofs.RegisterInterface
end

section
/-! PROOF. What the fabric reads at an F1 edge, and that the engines, the banks, the hard sites' captures and the events
leave it as it is (R59, R69). -/

namespace Sys2Proof.Proofs.FabricView

open Sys2Proof.Machine Sys2Proof.Laws

/-! ### Folds -/

/-- What every turn of a fold keeps, the fold keeps. -/
theorem foldl_keeps {σ α β : Type} (g : σ → β) {f : σ → α → σ} {l : List α} (h : ∀ t, ∀ a ∈ l, g (f t a) = g t) :
    ∀ t, g (l.foldl f t) = g t := by
  induction l with
  | nil => exact fun _ => rfl
  | cons a l ih =>
    intro t
    rw [List.foldl_cons, ih fun t b hb => h t b (List.mem_cons_of_mem a hb), h t a List.mem_cons_self]

/-- What one turn of a fold sets and the turns of the other elements keep, the fold sets. -/
theorem foldl_sets {σ α β : Type} (g : σ → β) {f : σ → α → σ} {x : α} {v : β} (hx : ∀ t, g (f t x) = v) {l : List α}
    (hne : ∀ t, ∀ a ∈ l, a ≠ x → g (f t a) = g t) (hm : x ∈ l) : ∀ t, g (l.foldl f t) = v := by
  induction l with
  | nil => cases hm
  | cons a l ih =>
    intro t
    have htail : ∀ t, ∀ b ∈ l, b ≠ x → g (f t b) = g t := fun t b hb => hne t b (List.mem_cons_of_mem a hb)
    by_cases hl : x ∈ l
    · exact ih htail hl _
    · obtain rfl : x = a := (List.mem_cons.mp hm).resolve_right hl
      rw [List.foldl_cons, foldl_keeps g fun t b hb => htail t b hb (ne_of_mem_of_not_mem hb hl), hx]

/-! ### What the fabric reads -/

/-- What decides the next values of the flip-flops, and what an F1 edge could put in the way of them: whose user clocks
run, the active plane, every register that launches a signal, OUT of the hard sites, and whether the harts act. -/
structure Seen where
  mode : Mode
  clk : Clock
  pwr : Power
  cap : Capture
  /-- device-scope registers below BNK_WWC, which a collision in a bank changes (R127) -/
  regs : Nat → Word → Word
  active : Plane
  unrep : Tbl (List Nat)
  pers : Nat
  ff : Tbl Bool
  x3 : Tbl Bool
  moved : Tbl Nat
  /-- OUT alone: captures change the rest of a site at the coming edge, OUT two edges later (R69) -/
  macOut : Nat → BitVec 32
  siteOut : Nat → SiteOut
  /-- state and store buffer of each hart -/
  harts : List (HartState × List SEntry)

/-- What a state shows of it. -/
def seen (s : State) : Seen where
  mode := s.mode
  clk := s.clk
  pwr := s.pwr
  cap := s.cap
  regs off d := if off < 0x34000 then dev s off d else d
  active := s.fab.active
  unrep := s.fab.unrep
  pers := s.fab.pers
  ff := s.fab.ff
  x3 := s.fab.x3
  moved := s.fab.moved
  macOut k := (tget {} s.fab.mac k).out
  siteOut b := (siteOf s b).out
  harts := (List.range 4).map fun h => ((hartOf s h).state, (hartOf s h).store)

/-- The banks, the engines, the pins, the events and the model's own records are no part of it. -/
theorem seen_engines (s : State) (b : Banks) (q : Engine) (h : HostIf) (g : Tbl Seg) (l : Tbl Link) (d : Dram)
    (p : Pins) (e : Events) (o : List Out) (n : Nat) :
    seen { s with bank := b, qe := q, host := h, seg := g, link := l, dram := d, pins := p, ev := e, outs := o, freeCtr := n }
      = seen s := rfl

theorem seen_foldl {α : Type} {f : State → α → State} (h : ∀ s a, seen (f s a) = seen s) (l : List α) (s : State) :
    seen (l.foldl f s) = seen s := foldl_keeps seen (fun s a _ => h s a) s

/-! The named updates. -/

@[simp] theorem seen_emit (s : State) (o : Out) : seen (emit s o) = seen s := rfl
@[simp] theorem seen_draw (s : State) : seen (draw s).2 = seen s := rfl
@[simp] theorem seen_setRing (s : State) (g : Nat) (r : Ring) : seen (setRing s g r) = seen s := rfl
@[simp] theorem seen_setQueue (s : State) (q : Nat) (f : Queue → Queue) : seen (setQueue s q f) = seen s := rfl
@[simp] theorem seen_setFsp (s : State) (k : Nat) (f : Fsp → Fsp) : seen (setFsp s k f) = seen s := rfl
@[simp] theorem seen_setXfer (s : State) (x : Xfer) : seen (setXfer s x) = seen s := rfl
@[simp] theorem seen_dropXfer (s : State) (tid : Nat) : seen (dropXfer s tid) = seen s := rfl
@[simp] theorem seen_setLeg (s : State) (tid : Nat) (l : Leg) : seen (setLeg s tid l) = seen s := rfl
@[simp] theorem seen_countQueue (s : State) (q : Nat) (f : QCnt → QCnt) : seen (countQueue s q f) = seen s := rfl
@[simp] theorem seen_countSeg (s : State) (k j : Nat) : seen (countSeg s k j) = seen s := rfl
@[simp] theorem seen_countLink (s : State) (k j : Nat) : seen (countLink s k j) = seen s := rfl
@[simp] theorem seen_setCopy (s : State) (p : Nat) (c : Copy) : seen (setCopy s p c) = seen s := rfl
@[simp] theorem seen_setCycle (s : State) (b : Nat) (c : ArrayCycle) : seen (setCycle s b c) = seen s := rfl
@[simp] theorem seen_putByte (s : State) (k : Nat) (d : Byte) (c : Chk) : seen (putByte s k d c) = seen s := rfl
@[simp] theorem seen_putDram (s : State) (o : Nat) (bs : List Byte) : seen (putDram s o bs) = seen s := rfl
@[simp] theorem seen_setBlk (s : State) (b : Nat) : seen (setBlk s b) = seen s := rfl
@[simp] theorem seen_setPin (s : State) (p : Nat) (x : Pin) : seen (setPin s p x) = seen s := rfl
@[simp] theorem seen_fspStart (s : State) (k : Nat) (x : Xfer) (l : Leg) (kind : Nat) :
    seen (fspStart s k x l kind) = seen s := rfl
@[simp] theorem seen_fspSpeak (s : State) (k : Nat) : seen (fspSpeak s k) = seen s := rfl
@[simp] theorem seen_missPosition (s : State) (k : Nat) (x : Xfer) (l : Leg) : seen (missPosition s k x l) = seen s := rfl

/-! Channels, messages, events and the error log. -/

@[simp] theorem seen_setChan (s : State) (mc : Nat) (c : Chan) : seen (setChan s mc c) = seen s := by
  unfold setChan
  split <;> rfl

@[simp] theorem seen_queueCpl (s : State) (c : Cpl) : seen (queueCpl s c) = seen s := by
  unfold queueCpl
  split <;> rfl

@[simp] theorem seen_sendMsix (s : State) (fn vec : Nat) : seen (sendMsix s fn vec) = seen s := by
  unfold sendMsix
  split <;> rfl

@[simp] theorem seen_riseEv (s : State) (n : Nat) : seen (riseEv s n) = seen s := by
  unfold riseEv
  split <;> rfl

@[simp] theorem seen_raiseEv (s : State) (n : Nat) : seen (raiseEv s n) = seen s := by
  obtain ⟨e, o, h⟩ := raiseEv_eq s n
  rw [h]
  rfl

@[simp] theorem seen_clearEv (s : State) (n : Nat) : seen (clearEv s n) = seen s := by
  unfold clearEv
  split
  · split
    · exact seen_riseEv s n
    · rfl
  · rfl

@[simp] theorem seen_levelEv (s : State) (n : Nat) (on : Bool) : seen (levelEv s n on) = seen s := by
  unfold levelEv
  split
  · rfl
  · split
    · exact seen_raiseEv _ n
    · rfl

@[simp] theorem seen_storeLog (s : State) (c : Nat) (r : BitVec 128) : seen (storeLog s c r) = seen s := by
  simp only [storeLog]
  split
  · rfl
  · split
    · exact seen_raiseEv _ _
    · rfl

@[simp] theorem seen_logError (s : State) (e : ErrRec) : seen (logError s e) = seen s := by
  simp only [logError, seen_raiseEv, seen_engines, seen_storeLog]
  split
  · exact seen_storeLog _ _ _
  · rfl

theorem seen_logBank (s : State) (src : Nat) (bs : List (Nat × Byte × Chk)) : seen (logBank s src bs) = seen s := by
  simp only [logBank]
  split <;> split <;> simp

@[simp] theorem seen_xferCpl (s : State) (x : Xfer) (k st c v a r : Nat) : seen (xferCpl s x k st c v a r) = seen s := by
  unfold xferCpl
  split
  · exact seen_queueCpl _ _
  · rfl

@[simp] theorem seen_fspCpl (s : State) (x : Xfer) (st c : Nat) : seen (fspCpl s x st c) = seen s := by
  unfold fspCpl
  split <;> rfl

@[simp] theorem seen_descDone (s : State) (r : Option (Nat × Word)) (st c v : Nat) : seen (descDone s r st c v) = seen s := by
  unfold descDone
  split
  · exact seen_queueCpl _ _
  · rfl

/-! ### DRAM -/

@[simp] theorem seen_freeErr (s : State) (n : Nat) (ue : Bool) (w src b : Nat) : seen (freeErr s n ue w src b) = seen s :=
  seen_logError _ _

@[simp] theorem seen_readBlk (s : State) (b src : Nat) (sense : DramSense) : seen (readBlk s b src sense).2 = seen s := by
  simp only [readBlk]
  split
  · exact seen_logError _ _
  · simp
  · split
    · simp
    · split <;> simp
  · rfl
  · split <;> exact seen_logError _ _
  · exact seen_logError _ _

@[simp] theorem seen_writeBlk (s : State) (o src : Nat) (bs : List Byte) (sense : DramSense) :
    seen (writeBlk s o src bs sense).2 = seen s := by
  have hr := seen_readBlk s (o / 64) src sense
  simp only [writeBlk]
  split
  · simp
  · split <;> rename_i h <;> rw [h] at hr <;> simpa using hr

theorem seen_writeDram (src : Nat) : ∀ (fuel : Nat) (s : State) (o : Nat) (bs : List Byte) (sense : List DramSense),
    seen (writeDram src fuel s o bs sense).2 = seen s
  | 0, _, _, _, _ => rfl
  | fuel + 1, s, o, bs, sense => by
    have hw := seen_writeBlk s o src (bs.take (64 - o % 64)) (sense.headD .clean)
    simp only [writeDram]
    split
    · rfl
    · split
      · rename_i h
        rw [h] at hw
        exact (seen_writeDram src fuel _ _ _ _).trans hw
      · exact hw

/-- Spilled cells are written to DRAM (R216). -/
theorem seen_dramAccess_write (s : State) (o src : Nat) (bs : List Byte) (sense : List DramSense) :
    seen (dramAccess s o src (.write bs) sense).2.2 = seen s :=
  seen_writeDram src (bs.length + 1) s o bs sense

theorem seen_dramRequest_one (m p : Nat) (s : State) (o : Nat) (acc : Acc) :
    seen (dramRequest.one m p s o acc) = seen s := by
  simp only [dramRequest.one]
  split
  · rfl
  · exact seen_setChan ..

@[simp] theorem seen_dramRequest (s : State) (m p o : Nat) (acc : Acc) : seen (dramRequest s m p o acc).2 = seen s := by
  simp only [dramRequest]
  split
  · split <;> simp [seen_dramRequest_one]
  · split <;> simp [seen_dramRequest_one]
  · exact seen_dramRequest_one ..

/-! ### Runs of port B accesses (R120, R222, R256) -/

@[simp] theorem seen_portBRequest (s : State) (m p b a : Nat) (acc : Acc) : seen (portBRequest s m p b a acc).2 = seen s := by
  simp only [portBRequest]
  split <;> rfl

@[simp] theorem seen_runNext (s : State) (m p : Nat) (r : BankRun) : seen (runNext s m p r).2 = seen s := by
  simp only [runNext]
  split
  · exact seen_portBRequest ..
  · rfl

@[simp] theorem seen_runStart (s : State) (m p a n : Nat) (w : Bool) (put : Option (List Byte)) :
    seen (runStart s m p a n w put).2 = seen s := seen_runNext ..

@[simp] theorem seen_runStep (s : State) (m p : Nat) (r : BankRun) (d : BDone) : seen (runStep s m p r d).2 = seen s := by
  simp only [runStep]
  split
  · rfl
  · split
    · rfl
    · exact seen_runNext ..

theorem seen_runDone {s t : State} {r : BankRun} {d : BDone} (h : runDone s r = some (d, t)) : seen t = seen s := by
  unfold runDone at h
  split at h
  · cases h
    rfl
  · cases h

/-! ### Admission (R223 to R228) -/

@[simp] theorem seen_storeSpill (s : State) (x : Xfer) : seen (storeSpill s x) = seen s :=
  seen_foldl (fun s _ => seen_dramAccess_write s _ _ _ _) _ s

@[simp] theorem seen_dataIn (s : State) (x : Xfer) (ds : List Byte) : seen (dataIn s x ds) = seen s := seen_storeSpill _ _

@[simp] theorem seen_fetchSource (s : State) (x : Xfer) : seen (fetchSource s x) = seen s := by
  simp only [fetchSource]
  split
  · exact seen_storeSpill s x
  · split
    · rfl
    · split
      · rfl
      · simp
    · rfl

@[simp] theorem seen_decided (s : State) (x : Xfer) : seen (decided s x) = seen s := by
  simp only [decided]
  split
  · rw [seen_dropXfer]
    split <;> simp
  · rw [seen_fetchSource]
    split <;> simp

@[simp] theorem seen_readQueue (s : State) (q : Nat) : seen (readQueue s q) = seen s := by
  simp only [readQueue]
  split
  · rfl
  · simp only [seen_engines, seen_setQueue, logQueue, seen_logError]

@[simp] theorem seen_openAhead (s : State) (q : Nat) : seen (openAhead s q) = seen s := by
  unfold openAhead openIfNone
  split
  · split <;> rfl
  · rfl

@[simp] theorem seen_enqueue (s : State) (x : Xfer) (i : Nat) : seen (enqueue s x i) = seen s := by
  have hr : seen (openAhead (readQueue s (x.sub.qid + i)) (x.sub.qid + i)) = seen s := by simp
  simp only [enqueue]
  generalize openAhead (readQueue s (x.sub.qid + i)) (x.sub.qid + i) = u at hr ⊢
  split
  · rfl
  · rw [← hr]
    split
    · split <;> simp
    · simp only [apply_ite seen, seen_decided, seen_raiseEv, seen_countQueue, seen_engines, seen_setXfer, ite_self]

@[simp] theorem seen_decideOp (s : State) (o : EnqOp) : seen (decideOp s o) = seen s := by
  unfold decideOp
  split
  · exact seen_enqueue ..
  · rfl

@[simp] theorem seen_startOperation (s : State) : seen (startOperation s) = seen s := by
  unfold startOperation
  split
  · rfl
  · split <;> rfl

@[simp] theorem seen_admissionCycle (s : State) : seen (admissionCycle s) = seen s :=
  (seen_startOperation _).trans (seen_foldl seen_decideOp _ _)

/-! ### The queue engine's bank reads (R222) -/

theorem seen_entryRead (s : State) (k st : Nat) (bs : List Byte) : seen (entryRead s k st bs) = seen s := by
  simp only [entryRead]
  split
  · rfl
  · split <;> rfl

@[simp] theorem seen_entryEdge (s : State) (k : Nat) : seen (entryEdge s k) = seen s := by
  simp only [entryEdge]
  split
  · rfl
  · split
    · rfl
    · rename_i r _ _ d u hd
      have hs := seen_runStep u 6 (fspPart u k) r d
      rw [seen_runDone hd] at hs
      split <;> rename_i h <;> rw [h] at hs
      · exact hs
      · exact (seen_entryRead ..).trans hs
      · exact (seen_entryRead ..).trans hs

@[simp] theorem seen_sourceEdge (s : State) (tid : Nat) : seen (sourceEdge s tid) = seen s := by
  simp only [sourceEdge]
  split
  · rfl
  · rename_i x _
    split
    · rfl
    · rename_i r _
      split
      · rfl
      · rename_i d u hd
        have hs := seen_runStep u 6 x.sub.part r d
        rw [seen_runDone hd] at hs
        split <;> rename_i h <;> rw [h] at hs
        · exact hs
        · exact (seen_dataIn ..).trans hs
        · split
          · exact (seen_runNext ..).trans hs
          · exact hs

theorem seen_qeEdge (s : State) : seen (qeEdge s) = seen s :=
  (seen_foldl seen_sourceEdge _ _).trans (seen_foldl seen_entryEdge _ _)

/-! ### Fabric stream ports (R220, R230) -/

@[simp] theorem seen_hostPut : ∀ (n mps : Nat) (s : State) (a : Nat) (bs : List Byte), seen (hostPut n mps s a bs) = seen s
  | 0, _, _, _, _ => rfl
  | n + 1, mps, s, a, bs => by
    unfold hostPut
    split
    · rfl
    · exact seen_hostPut n mps _ _ _

theorem seen_handOver_put (x : Xfer) (l : Leg) (s : State) (g : Nat) (b : RxBuf) (i : Nat) (bs : List Byte) :
    seen (handOver.put x l s g b i bs) = seen s := by
  simp only [handOver.put]
  split <;> simp

@[simp] theorem seen_handOver (s : State) (x : Xfer) (l : Leg) (prom : Bool) : seen (handOver s x l prom).1 = seen s := by
  simp only [handOver]
  split
  · rfl
  · split
    · exact seen_handOver_put ..
    · exact seen_handOver_put ..
    · rfl
  · rfl

@[simp] theorem seen_takeCapacity (s : State) (e : Nat) (x : Xfer) (l : Leg) (kind : Nat) :
    seen (takeCapacity s e x l kind) = seen s := by
  simp only [takeCapacity, seen_engines, apply_ite seen, seen_setQueue, ite_self]

@[simp] theorem seen_drainIfEmpty (s : State) (q : Nat) : seen (drainIfEmpty s q) = seen s := by
  unfold drainIfEmpty
  split
  · split
    · exact seen_raiseEv _ _
    · rfl
  · rfl

@[simp] theorem seen_ringIdle (s : State) (g : Nat) : seen (ringIdle s g) = seen s := by
  simp only [ringIdle]
  split <;> rfl

@[simp] theorem seen_returnBuf (s : State) (l : Leg) : seen (returnBuf s l) = seen s := by
  simp only [returnBuf]
  split
  · split <;> simp
  · rfl

@[simp] theorem seen_dropIfDone (s : State) (tid : Nat) : seen (dropIfDone s tid) = seen s := by
  unfold dropIfDone
  split
  · split
    · exact seen_foldl seen_returnBuf _ _
    · rfl
  · rfl

@[simp] theorem seen_delivered (s : State) (x : Xfer) (l : Leg) (kind : Nat) (b : Option RxBuf) :
    seen (delivered s x l kind b) = seen s := by
  simp [delivered]

@[simp] theorem seen_cellLost (s : State) (x : Xfer) (i : Nat) : seen (cellLost s x i) = seen s := by
  simp only [cellLost, seen_dropIfDone]
  rw [seen_foldl fun s l => seen_drainIfEmpty s _]
  simp [logCell]

@[simp] theorem seen_deliver (s : State) (e : Nat) (x : Xfer) (l : Leg) (kind : Nat) : seen (deliver s e x l kind) = seen s := by
  simp only [deliver]
  split
  · exact seen_cellLost ..
  · split <;> simp

theorem seen_fspPosition (j : Nat) (s : State) (k : Nat) : seen (fspPosition j s k) = seen s := by
  unfold fspPosition
  split
  · rfl
  · split
    · rfl
    · simp [apply_ite seen]

theorem seen_fspDone (s : State) (k : Nat) : seen (fspDone s k) = seen s := by
  simp only [fspDone]
  split
  · split
    · rfl
    · split
      · simp [apply_ite seen]
      · rfl
  · rfl

theorem seen_fspAfter (s : State) : seen (fspAfter s) = seen s := by
  have h := seen_foldl seen_fspDone (s.qe.fsp.map (·.1)) s
  unfold fspAfter fspPositions
  split
  · exact (seen_foldl (seen_fspPosition _) _ _).trans h
  · exact h

theorem seen_fspCut (s : State) (k : Nat) : seen (fspCut s k) = seen s := by
  simp only [fspCut]
  split
  · rfl
  · split
    · rfl
    · split
      · simp [apply_ite seen]
      · rfl

theorem seen_fspBefore (s : State) : seen (fspBefore s) = seen s := seen_foldl seen_fspCut _ s

/-! ### The DMA engine (R256) -/

@[simp] theorem seen_copyEnds (s : State) (p st : Nat) : seen (copyEnds s p st) = seen s := by
  simp only [copyEnds]
  split
  · rfl
  · exact seen_descDone ..

@[simp] theorem seen_unitFails (s : State) (p st : Nat) : seen (unitFails s p st) = seen s := by
  unfold unitFails
  split
  · exact seen_copyEnds ..
  · rfl

@[simp] theorem seen_unitAccess (s : State) (p : Nat) (c : Copy) (a n : Nat) (bytes : Option (List Byte)) :
    seen (unitAccess s p c a n bytes) = seen s := by
  simp only [unitAccess]
  split <;> simp

@[simp] theorem seen_unitWritten (s : State) (p : Nat) (c : Copy) : seen (unitWritten s p c) = seen s := by
  simp [unitWritten, apply_ite seen]

@[simp] theorem seen_unitAccessed (s : State) (p : Nat) (c : Copy) (bs : List Byte) :
    seen (unitAccessed s p c bs) = seen s := by
  simp [unitAccessed, unitStore, apply_ite seen]

theorem seen_unitBank (s : State) (p : Nat) (c : Copy) (r : BankRun) : seen (unitBank s p c r) = seen s := by
  simp only [unitBank]
  split
  · rfl
  · rename_i d u hd
    have hs := seen_runStep u dmaMaster p r d
    rw [seen_runDone hd] at hs
    split <;> rename_i h <;> rw [h] at hs
    · exact hs
    · exact (seen_unitAccessed ..).trans hs
    · exact (seen_unitFails ..).trans hs

theorem seen_unitDram (s : State) (p : Nat) (c : Copy) : seen (unitDram s p c) = seen s := by
  simp only [unitDram]
  split
  · rfl
  · split
    · rfl
    · simp [apply_ite seen, seen_engines]

theorem seen_dmaEdge (s : State) : seen (dmaEdge s) = seen s := by
  refine seen_foldl (fun s p => ?_) _ s
  split
  · split
    · exact seen_unitBank ..
    · exact seen_unitDram ..
  · rfl

/-! ### The end of an F1 cycle: event lanes, port B, hard sites (R69, R121, R357) -/

theorem seen_deliverEvent (s : State) (n : Nat) : seen (deliverEvent s n) = seen s := by
  simp only [deliverEvent]
  split
  · rfl
  · split <;> simp [seen_engines]

theorem seen_lanesDue (s : State) : seen (lanesDue s) = seen s := seen_foldl seen_deliverEvent _ s

/-- A reservation may come and go: no signal and no running region depends on it. -/
theorem seen_setHart (s : State) (h : Nat) (x : Hart) (hs : x.state = (hartOf s h).state)
    (hq : x.store = (hartOf s h).store) : seen (setHart s h x) = seen s := by
  have hh : (seen (setHart s h x)).harts = (seen s).harts := by
    match h with
    | 0 | 1 | 2 | n + 3 =>
      simp only [hartOf] at hs hq
      simp only [seen, List.range_succ, List.range_zero, List.nil_append, List.cons_append, List.map_cons, List.map_nil,
        setHart, hartOf, hs, hq]
  match h with
  | 0 | 1 | 2 | n + 3 => exact (congrArg (fun l => { seen s with harts := l }) hh :)

theorem seen_dropReservations (s : State) (b a n : Nat) : seen (dropReservations s b a n) = seen s := by
  refine seen_foldl (fun s h => ?_) _ s
  dsimp only
  split
  · split
    · exact seen_setHart s h _ rfl rfl
    · rfl
  · rfl

theorem seen_hartServed (s : State) (b : Nat) (r : BReq) : seen (hartServed s b r) = seen s := by
  simp only [hartServed]
  split
  · split
    · split
      · exact seen_setHart s _ _ rfl rfl
      · rfl
    · split
      · exact seen_setHart s _ _ rfl rfl
      · rfl
    · rfl
  · rfl

/-- BNK_WWC and the registers above it say nothing about partitions and their regions (R22, R23, R127). -/
theorem seen_setDev (s : State) {off : Nat} (d w : Word) (h : 0x34000 ≤ off) : seen (setDev s off d w) = seen s := by
  have hr : (seen (setDev s off d w)).regs = (seen s).regs := by
    funext o e
    show (if o < 0x34000 then dev (setDev s off d w) o e else e) = if o < 0x34000 then dev s o e else e
    split
    · rw [setDev_dev_ne s d w e (by omega)]
    · rfl
  show { seen s with regs := (seen (setDev s off d w)).regs } = seen s
  rw [hr]

@[simp] theorem seen_collide (s : State) (b : Nat) : seen (collide s b) = seen s :=
  (seen_raiseEv _ _).trans (seen_setDev s _ _ (Nat.le_add_right _ _))

theorem seen_putBytes (b : Nat) (ds : List Byte) : ∀ (s : State) (a : Nat), seen (putBytes b s a ds) = seen s := by
  induction ds with
  | nil => exact fun _ _ => rfl
  | cons d ds ih => exact fun s a => ih _ _

theorem seen_foldl_putByte {α : Type} (k : α → Nat) (d : α → Byte) (c : α → Chk) (l : List α) (s : State) :
    seen (l.foldl (fun s a => putByte s (k a) (d a) (c a)) s) = seen s := seen_foldl (fun s _ => seen_putByte s _ _ _) l s

@[simp] theorem seen_portBAccess (s : State) (b a src : Nat) (acc : Acc) : seen (portBAccess s b a src acc).2.2 = seen s := by
  simp only [portBAccess]
  split
  · simp only [apply_ite seen, seen_collide, seen_setCycle, seen_foldl_putByte, ite_self]
  · split <;> simp [seen_logBank]
  · split
    · simp [seen_logBank]
    · simp only [apply_ite seen, seen_collide, seen_setCycle, seen_foldl_putByte, seen_logBank, ite_self]

theorem seen_refuseStranded (s : State) (b : Nat) : seen (refuseStranded s b) = seen s := by
  simp only [refuseStranded]
  split <;> rfl

theorem seen_portBService (s : State) (b : Nat) : seen (portBService s b) = seen s := by
  have hr := seen_refuseStranded s b
  simp only [portBService]
  generalize refuseStranded s b = u at hr ⊢
  rw [← hr]
  split
  · rfl
  · split
    · rfl
    · split
      · rfl
      · simp only [seen_engines, seen_hartServed]
        split <;> simp [seen_engines]

theorem seen_portBEdge (s : State) : seen (portBEdge s) = seen s := seen_foldl seen_portBService _ s

/-! Hard sites: what a capture leaves on OUT comes two edges later (R69). -/

/-- A read result waits behind OUT (R69, R119). -/
@[simp] theorem seen_siteResult (s : State) (b : Nat) (o : SiteOut) : seen (siteResult s b o) = seen s := by
  have hs : (seen (siteResult s b o)).siteOut = (seen s).siteOut := by
    funext k
    show (tget {} (tset {} s.fab.site b { siteOf s b with pend := (siteOf s b).pend ++ [(nextEdge s + 2, o)] }) k).out
      = (siteOf s k).out
    by_cases h : k = b
    · rw [h, tget_tset_same]
    · rw [tget_tset_ne _ _ _ _ h]
      rfl
  show { seen s with siteOut := (seen (siteResult s b o)).siteOut } = seen s
  rw [hs]

/-- A MAC capture that keeps OUT. -/
theorem seen_setMac (s : State) (r t : Nat) (m : Mac) (h : m.out = (macOf s r t).out) : seen (setMac s r t m) = seen s := by
  have hm : (seen (setMac s r t m)).macOut = (seen s).macOut := by
    funext k
    show (tget {} (tset {} s.fab.mac (siteKey r t) m) k).out = (tget {} s.fab.mac k).out
    by_cases hk : k = siteKey r t
    · rw [hk, tget_tset_same, h]
      rfl
    · rw [tget_tset_ne _ _ _ _ hk]
  show { seen s with macOut := (seen (setMac s r t m)).macOut } = seen s
  rw [hm]

@[simp] theorem seen_portARead (s : State) (b : Nat) (wide : Bool) (a : Nat) : seen (portARead s b wide a) = seen s := by
  simp only [portARead]
  split
  · exact seen_siteResult ..
  · split
    · simp
    · simp [seen_logBank]

@[simp] theorem seen_portAWrite (s : State) (b : Nat) (wide : Bool) (a : Nat) (d : Word) :
    seen (portAWrite s b wide a d) = seen s := by
  simp only [portAWrite]
  split
  · rfl
  · simp only [apply_ite seen, seen_collide, seen_setCycle, seen_dropReservations, seen_putBytes, ite_self]

@[simp] theorem seen_portAccess (s : State) (b w : Nat) : seen (portAccess s b w) = seen s := by
  simp [portAccess, apply_ite seen]

theorem seen_undefinedAccess (s : State) (b : Nat) : seen (undefinedAccess s b) = seen s := by
  have hd := seen_draw s
  simp only [undefinedAccess]
  generalize draw s = d at hd ⊢
  rw [← hd]
  simp only [seen_siteResult, apply_ite seen, seen_foldl_putByte, seen_portAccess, ite_self]

theorem seen_memCapture (s : State) (b : Nat) (pins : Option (BitVec 48)) : seen (memCapture s b pins) = seen s := by
  simp only [memCapture]
  split
  · split
    · exact seen_portAccess ..
    · exact seen_undefinedAccess ..
  · rfl

theorem seen_macCapture (s : State) (r t : Nat) (pins : Option (BitVec 48)) (force : Nat → Nat) :
    seen (macCapture s r t pins force) = seen s := by
  simp only [macCapture, draw]
  split
  · split
    · exact seen_setMac _ _ _ _ rfl
    · exact seen_setMac _ _ _ _ rfl
  · rfl

theorem seen_siteEdge (s : State) : seen (siteEdge s) = seen s := by
  refine seen_foldl (fun s k => ?_) _ s
  unfold siteCapture
  split
  · exact seen_macCapture ..
  · exact seen_memCapture ..

/-- What no command has done in the F1 cycle that ends is done without a signal changing. -/
theorem seen_cycleEnd (s : State) : seen (cycleEnd s) = seen s := by
  simp only [cycleEnd, seen_portBEdge, seen_siteEdge]
  split
  · exact (seen_admissionCycle _).trans (seen_lanesDue s)
  · exact seen_lanesDue s

theorem seen_fspAnnounce (s : State) (k : Nat) : seen (fspAnnounce s k) = seen s := by
  simp only [fspAnnounce]
  split <;> rfl

/-! ### What follows from it -/

section Congruence

variable {s t : State} (h : seen t = seen s)
include h

theorem active_of_seen : t.fab.active = s.fab.active := congrArg Seen.active h
theorem ff_of_seen : t.fab.ff = s.fab.ff := congrArg Seen.ff h
theorem clk_of_seen : t.clk = s.clk := congrArg Seen.clk h
theorem pwr_of_seen : t.pwr = s.pwr := congrArg Seen.pwr h

theorem dev_of_seen {off : Nat} (d : Word) (ho : off < 0x34000) : dev t off d = dev s off d := by
  have hr := congrFun (congrFun (congrArg Seen.regs h) off) d
  simpa only [seen, if_pos ho] using hr

theorem siteOut_of_seen (r tl : Nat) : siteOut t r tl = siteOut s r tl := by
  have hm : (tget {} t.fab.mac (siteKey r tl)).out = (tget {} s.fab.mac (siteKey r tl)).out :=
    congrFun (congrArg Seen.macOut h) _
  have hs : (siteOf t (4 * r + (tl - 12))).out = (siteOf s (4 * r + (tl - 12))).out :=
    congrFun (congrArg Seen.siteOut h) _
  simp only [siteOut, active_of_seen h, hm, hs]

theorem badBits_of_seen (key b n : Nat) : badBits t key b n = badBits s key b n := by
  have hu : t.fab.unrep = s.fab.unrep := congrArg Seen.unrep h
  simp only [badBits, hu]

theorem badNode_of_seen (r tl : Nat) (n : Node) : badNode t r tl n = badNode s r tl n := by
  cases n <;> simp only [badNode, badPacked, badBits_of_seen h, active_of_seen h]

theorem launch_of_seen (number j k : Nat) : Arrival.launch t number j k = Arrival.launch s number j k := by
  have hm : t.fab.moved = s.fab.moved := congrArg Seen.moved h
  unfold Arrival.launch nextEdge
  rw [hm, clk_of_seen h]

/-- Every node of a tile has its value and arrival from the planes, the launching registers and OUT. -/
theorem evalNode_of_seen (r tl cap : Nat) : ∀ (fuel : Nat) (n : Node), evalNode t r tl cap fuel n = evalNode s r tl cap fuel n
  | 0, _ => rfl
  | fuel + 1, n => by
    have ih := evalNode_of_seen r tl cap fuel
    have hx : t.fab.x3 = s.fab.x3 := congrArg Seen.x3 h
    cases n <;> simp only [evalNode, badNode_of_seen h, active_of_seen h, ff_of_seen h, hx, siteOut_of_seen h,
      launch_of_seen h, ih]

theorem sig_of_seen (r tl : Nat) (n : Node) (route period : Nat) : sig t r tl n route period = sig s r tl n route period := by
  simp only [sig, evalNode_of_seen h]

theorem enabled_of_seen (p : Nat) : enabled t p = enabled s p := by
  have hp : t.fab.pers = s.fab.pers := congrArg Seen.pers h
  simp only [enabled, hp, dev_of_seen h 1 (show 0x20004 < 0x34000 by decide)]

theorem userRuns_of_seen (p : Nat) : userRuns t p = userRuns s p := by
  have hm : t.mode = s.mode := congrArg Seen.mode h
  have hc : t.cap = s.cap := congrArg Seen.cap h
  simp only [userRuns, enabled_of_seen h, frozen, capOf, gated, entryPast, hm, hc, pwr_of_seen h]

end Congruence

theorem still_of_harts {s t : State} (h : (seen t).harts = (seen s).harts) (hs : s.still fun _ => True) :
    t.still fun _ => True := by
  intro g hg _
  simp only [seen, List.map_inj_left] at h
  have hp := h g (List.mem_range.mpr hg)
  obtain ⟨hst, hsr⟩ := Prod.mk.inj hp
  rw [hst, hsr]
  exact hs g hg trivial

/-! ### Running regions -/

theorem mem_sins {x n : Nat} {l : List Nat} (h : x ∈ sins n l) : x = n ∨ x ∈ l := by
  induction l with
  | nil => exact .inl (List.mem_singleton.mp h)
  | cons k l ih =>
    unfold sins at h
    split at h
    · exact List.mem_cons.mp h
    · split at h
      · exact .inr h
      · rcases List.mem_cons.mp h with rfl | h
        · exact .inr List.mem_cons_self
        · exact (ih h).imp_right (List.mem_cons_of_mem k)

/-- The region field of a frame address has nine bits (Table 7-1). -/
theorem configured_lt {p : Plane} {r : Nat} (h : r ∈ configured p) : r < 512 := by
  unfold configured at h
  refine List.foldlRecOn (motive := fun l => ∀ x ∈ l, x < 512) p.frames _ (by simp) ?_ r h
  intro l hl e _ x hx
  rcases mem_sins hx with rfl | hx
  · exact Nat.mod_lt _ (by decide)
  · exact hl x hx

theorem runningRegions_of_seen {s t : State} (h : seen t = seen s) : runningRegions t = runningRegions s := by
  unfold runningRegions
  rw [active_of_seen h]
  refine List.filter_congr fun r hr => ?_
  have hr := configured_lt hr
  have hp : regionPart t r = regionPart s r := by
    simp only [regionPart, dev_of_seen h 0 (show 0x20100 + 4 * (r / 4) < 0x34000 by omega)]
  rw [hp, userRuns_of_seen h]

theorem not_gated_of_running {s : State} {r : Nat} (h : r ∈ runningRegions s) : gated s = false := by
  have hr := (List.mem_filter.mp h).2
  simp only [userRuns, Bool.and_eq_true, Bool.not_eq_true'] at hr
  exact hr.2

end Sys2Proof.Proofs.FabricView
end

section
/-! PROOF. Every flip-flop at an edge of its domain (R59). -/

namespace Sys2Proof.Proofs.FlipFlops

open Sys2Proof.Machine Sys2Proof.Laws Sys2Proof.Proofs.FabricView

/-! ### Flip-flops -/

theorem ffKey_inj {r t c e i r' t' c' e' i' : Nat} (ht : t < 16) (ht' : t' < 16) (hc : c < 16) (hc' : c' < 16)
    (he : e < 16) (he' : e' < 16) (hi : i < 2) (hi' : i' < 2) (h : ffKey r t c e i = ffKey r' t' c' e' i') :
    r = r' ∧ t = t' ∧ c = c' ∧ e = e' := by
  unfold ffKey at h
  omega

/-- The elements of a region: tile, cluster, element. -/
def elements : List (Nat × Nat × Nat) :=
  (List.range 16).flatMap fun t => (List.range 16).flatMap fun c => (List.range 16).map fun e => (t, c, e)

theorem mem_elements {t c e : Nat} : (t, c, e) ∈ elements ↔ t < 16 ∧ c < 16 ∧ e < 16 := by
  simp only [elements, List.mem_flatMap, List.mem_map, List.mem_range, Prod.mk.injEq]
  constructor
  · rintro ⟨_, ht, _, hc, _, he, rfl, rfl, rfl⟩
    exact ⟨ht, hc, he⟩
  · rintro ⟨ht, hc, he⟩
    exact ⟨t, ht, c, hc, e, he, rfl, rfl, rfl⟩

/-- Both flip-flops of one element at an edge. -/
def elementStep (s : State) (n e1 r : Nat) (ff : Tbl Bool) (x : Nat × Nat × Nat) : Tbl Bool :=
  if e1 % domPeriod (fld (ctrlOf s.fab.active r x.1 x.2.1 x.2.2) 15 14) = 0 then
    tset false (tset false ff (ffKey r x.1 x.2.1 x.2.2 0) (ffNext s n r x.1 x.2.1 x.2.2 0))
      (ffKey r x.1 x.2.1 x.2.2 1) (ffNext s n r x.1 x.2.1 x.2.2 1)
  else ff

theorem ffStep_eq (s : State) (n e1 r : Nat) (ff : Tbl Bool) :
    ffStep s n e1 r ff = elements.foldl (elementStep s n e1 r) ff := by
  simp only [ffStep, elements, List.foldl_flatMap, List.foldl_map, elementStep]

theorem elementStep_same {s : State} {n e1 r t c e i : Nat} (ff : Tbl Bool) (hi : i < 2)
    (hd : e1 % domPeriod (fld (ctrlOf s.fab.active r t c e) 15 14) = 0) :
    tget false (elementStep s n e1 r ff (t, c, e)) (ffKey r t c e i) = ffNext s n r t c e i := by
  simp only [elementStep, if_pos hd]
  match i, hi with
  | 0, _ => rw [tget_tset_ne _ _ _ _ (by simp [ffKey]), tget_tset_same]
  | 1, _ => exact tget_tset_same ..

theorem elementStep_ne {s : State} {n e1 r t c e k : Nat} (ff : Tbl Bool) (h : ∀ i < 2, k ≠ ffKey r t c e i) :
    tget false (elementStep s n e1 r ff (t, c, e)) k = tget false ff k := by
  simp only [elementStep]
  split
  · rw [tget_tset_ne _ _ _ _ (h 1 (by decide)), tget_tset_ne _ _ _ _ (h 0 (by decide))]
  · rfl

section OneFlipFlop

variable {s : State} {r t c e i : Nat} (n e1 : Nat) (ht : t < 16) (hc : c < 16) (he : e < 16) (hi : i < 2)
include ht hc he hi

/-- An element's own turn sets its flip-flops; no other element has their keys. -/
theorem ffStep_own (hd : e1 % domPeriod (fld (ctrlOf s.fab.active r t c e) 15 14) = 0) (ff : Tbl Bool) :
    tget false (ffStep s n e1 r ff) (ffKey r t c e i) = ffNext s n r t c e i := by
  rw [ffStep_eq]
  refine foldl_sets (tget false · (ffKey r t c e i)) (fun ff => elementStep_same ff hi hd) ?_
    (mem_elements.mpr ⟨ht, hc, he⟩) ff
  rintro ff ⟨t', c', e'⟩ hm hne
  obtain ⟨ht', hc', he'⟩ := mem_elements.mp hm
  refine elementStep_ne ff fun j hj hk => hne ?_
  obtain ⟨-, rfl, rfl, rfl⟩ := ffKey_inj ht ht' hc hc' he he' hi hj hk
  rfl

theorem ffStep_other {r' : Nat} (hr : r' ≠ r) (ff : Tbl Bool) :
    tget false (ffStep s n e1 r' ff) (ffKey r t c e i) = tget false ff (ffKey r t c e i) := by
  rw [ffStep_eq]
  refine foldl_keeps (tget false · (ffKey r t c e i)) ?_ ff
  rintro ff ⟨t', c', e'⟩ hm
  obtain ⟨ht', hc', he'⟩ := mem_elements.mp hm
  exact elementStep_ne ff fun j hj hk => hr (ffKey_inj ht ht' hc hc' he he' hi hj hk).1.symm

/-- A running region's turn sets its flip-flops from the state before the edge; no other region's turn touches them. -/
theorem fabricStep_ff {rs : List Nat} (hr : r ∈ rs)
    (hd : e1 % domPeriod (fld (ctrlOf s.fab.active r t c e) 15 14) = 0) :
    tget false (fabricStep s n e1 rs).ff (ffKey r t c e i) = ffNext s n r t c e i := by
  have hx : ∀ (r : Nat) (f : Fabric), (x5Step s n e1 r f).ff = f.ff := by
    intro r f
    unfold x5Step
    split
    · rfl
    · refine foldl_keeps Fabric.ff ?_ f
      exact fun _ _ _ => rfl
  refine foldl_sets (fun f : Fabric => tget false f.ff (ffKey r t c e i)) (fun f => ?_) (fun f r' _ hne => ?_) hr s.fab
  · rw [hx]
    exact ffStep_own n e1 ht hc he hi hd f.ff
  · rw [hx]
    exact ffStep_other n e1 ht hc he hi hne f.ff

end OneFlipFlop

/-- With defined signals the value that a flip-flop takes is R59's: VALn under SR, else D under CE, else its own. -/
theorem ffNext_of_signals {s : State} {n r t c e i w k : Nat} {sr ce d : Bool} (hw : w = ctrlOf s.fab.active r t c e)
    (hk : k = domPeriod (fld w 15 14)) (hb : badBits s (fkey 0 r t 8) (16 * (16 * c + e)) 16 = false)
    (hsr : sig s r t (.x1 c (8 * e + 7)) 0 k = some sr) (hce : sig s r t (.x1 c (8 * e + 6)) 0 k = some ce)
    (hd : (if w.testBit (7 - i) then sig s r t (.x1 c (8 * e + 5)) 0 k else sig s r t (.z c e i) 0 k) = some d) :
    ffNext s n r t c e i = if w.testBit (3 - i) && sr then w.testBit (1 - i)
      else if !w.testBit (5 - i) || ce then d
      else tget false s.fab.ff (ffKey r t c e i) := by
  have hreset : (if w.testBit (3 - i) then some sr else some false) = some (w.testBit (3 - i) && sr) := by
    cases w.testBit (3 - i) <;> rfl
  have hload : (if w.testBit (5 - i) then some ce else some true) = some (!w.testBit (5 - i) || ce) := by
    cases w.testBit (5 - i) <;> rfl
  simp only [ffNext, ← hw, ← hk, hb, hsr, hce, bit, hd, Bool.false_eq_true, if_false, hreset, hload]
  cases w.testBit (3 - i) && sr with
  | true => rfl
  | false =>
    cases !w.testBit (5 - i) || ce with
    | true => rfl
    | false => rfl

/-! ### The edge -/

theorem seen_probeStep (s : State) (n : Nat) : seen (probeStep s n) = seen s :=
  seen_foldl (fun s _ => seen_setPin s _ _) _ s

theorem seen_fspStep (s : State) : seen (fspStep s) = seen s := by
  simp only [fspStep]
  split <;> rfl

theorem seen_x5Effects (s : State) (r : Nat) : seen (x5Effects s r) = seen s := by
  refine seen_foldl (fun s b => ?_) _ s
  split
  · rfl
  · split
    · exact seen_levelEv ..
    · rfl

/-- s once the fabric's announcements of this F1 cycle are counted (R222). -/
def announced (s : State) : State := (announcing s).foldl fspAnnounce s

theorem seen_announced (s : State) : seen (announced s) = seen s := seen_foldl seen_fspAnnounce _ s

/-- The state in which the registers of an edge have moved, before what they drive outside the fabric follows. -/
def registersMoved (u : State) : State :=
  let s := fspStep (countWaiting (probeStep (draw u).2 u.freeCtr))
  { s with fab := { fabricStep u u.freeCtr (u.clk.f1 + 1) (runningRegions u) with
    probePipe := s.fab.probePipe, captured := [], announced := [] } }

/-- The stages of one F1 edge. -/
theorem userClockEdge_eq (s : State) : ∃ u v t, u = announced s ∧ v = (runningRegions u).foldl x5Effects (registersMoved u)
    ∧ t = noteMoves u (u.clk.f1 + 1) (siteOuts v (u.clk.f1 + 1))
    ∧ userClockEdge s = { t with
        clk := { t.clk with f1 := u.clk.f1 + 1, k := t.clk.k + 1 }
        ev := { t.ev with pulses := t.ev.pulses.filter fun e => !(e.2 + 1 ≤ u.clk.f1 + 1) } } :=
  ⟨_, _, _, rfl, rfl, rfl, rfl⟩

theorem registersMoved_rest (u : State) :
    (registersMoved u).pwr = u.pwr ∧ (seen (registersMoved u)).harts = (seen u).harts := by
  have h : seen (fspStep (countWaiting (probeStep (draw u).2 u.freeCtr))) = seen u :=
    (seen_fspStep _).trans (seen_probeStep _ _)
  exact ⟨(congrArg Seen.pwr h :), (congrArg Seen.harts h :)⟩

/-- Of an F1 edge: the flip-flops are the fabric's step, low-power entry and the harts are where they were. -/
theorem userClockEdge_parts (s : State) : ∃ u, seen u = seen s
    ∧ (userClockEdge s).fab.ff = (fabricStep u u.freeCtr (u.clk.f1 + 1) (runningRegions u)).ff
    ∧ (userClockEdge s).pwr = s.pwr ∧ (seen (userClockEdge s)).harts = (seen s).harts := by
  obtain ⟨u, v, t, hu, hv, ht, h⟩ := userClockEdge_eq s
  have hus : seen u = seen s := hu ▸ seen_announced s
  have hvm : seen v = seen (registersMoved u) := hv ▸ seen_foldl seen_x5Effects _ _
  obtain ⟨hpwr, hharts⟩ := registersMoved_rest u
  have htff : t.fab.ff = v.fab.ff := ht ▸ rfl
  have htpwr : t.pwr = v.pwr := ht ▸ rfl
  have htharts : (seen t).harts = (seen v).harts := ht ▸ rfl
  rw [h]
  refine ⟨u, hus, ?_, ?_, ?_⟩
  · exact htff.trans (ff_of_seen hvm)
  · exact htpwr.trans ((pwr_of_seen hvm).trans (hpwr.trans (pwr_of_seen hus)))
  · exact htharts.trans ((congrArg Seen.harts hvm).trans (hharts.trans (congrArg Seen.harts hus)))

/-- Harts that are OFF, with nothing in their store buffers, let an edge pass (R332, R336). -/
theorem hartsEdge_still {s : State} (h : s.still fun _ => True) : hartsEdge s = s := by
  have hedge : (List.range 4).foldl hartEdge s = s := by
    refine List.foldlRecOn (motive := fun t => t = s) _ _ rfl ?_
    rintro t rfl g hg
    simp [hartEdge, (h g (List.mem_range.mp hg) trivial).1]
  rw [hartsEdge, hedge]
  refine List.foldlRecOn (motive := fun t => t = s) _ _ rfl ?_
  rintro t rfl g hg
  obtain ⟨hoff, hempty⟩ := h g (List.mem_range.mp hg) trivial
  simp [drainNext, hoff, hempty]

theorem gated_of_step {s : State} {m : Mode} {n : Nat} (hm : s.pwr.entry = some m) (hn : s.pwr.entryStep = n)
    (h : 2 ≤ n) : gated s = true := by
  simp [gated, entryPast, hm, hn, h]

/-- Low-power entry reaches the fabric with the stop of the core's clocks, after the gating of its user clocks (Table
17-3). -/
theorem entryTick_fab {s : State} (h : gated s = false) : (entryTick s).fab = s.fab := by
  have late {m n} (hm : s.pwr.entry = some m) (hn : s.pwr.entryStep = n) (h2 : 2 ≤ n) : False :=
    Bool.false_ne_true (h.symm.trans (gated_of_step hm hn h2))
  simp only [entryTick]
  split
  · split
    · rfl
    · split <;> rfl
  · next hm hn => exact (late hm hn (by decide)).elim
  · next hm hn => exact (late hm hn (by decide)).elim
  · next hm hn => exact (late hm hn (by decide)).elim
  · rfl

theorem padsFreed_fab (s : State) : (padsFreed s).fab = s.fab := by
  unfold padsFreed
  split <;> rfl

theorem gated_padsFreed (s : State) : gated (padsFreed s) = gated s := by
  unfold padsFreed
  split <;> rfl

/-- What follows the registers of an edge changes no flip-flop. -/
theorem ff_after_userClockEdge {u v : State} (hv : seen v = seen u) (hs : u.still fun _ => True) (hg : gated u = false) :
    (entryTick (padsFreed (hartsEdge v))).fab.ff = u.fab.ff := by
  have hgv : gated (padsFreed v) = false := by
    rw [gated_padsFreed, gated, entryPast, pwr_of_seen hv]
    exact hg
  rw [hartsEdge_still (still_of_harts (congrArg Seen.harts hv) hs), entryTick_fab hgv, padsFreed_fab, ff_of_seen hv]

/-- What an edge leaves in the flip-flops is what the fabric's step gives in a state that shows the fabric what s does. -/
theorem exec_userClockEdge_ff {s : State} (he : edgeDue s = true) (hg : gated s = false) (hs : s.still fun _ => True) :
    ∃ t u, exec .userClockEdge s = .next t ∧ seen u = seen s
      ∧ t.fab.ff = (fabricStep u u.freeCtr (u.clk.f1 + 1) (runningRegions u)).ff := by
  have hx : exec .userClockEdge s = .next (entryTick (padsFreed (hartsEdge (fspAfter (dmaEdge (qeEdge
      (userClockEdge (fspBefore (cycleEnd s)))))))) ) := by
    show execUserClockEdge s = _
    rw [execUserClockEdge, if_pos he]
  have hb : seen (fspBefore (cycleEnd s)) = seen s := (seen_fspBefore _).trans (seen_cycleEnd s)
  obtain ⟨u, hu, hff, hpwr, hharts⟩ := userClockEdge_parts (fspBefore (cycleEnd s))
  refine ⟨_, u, hx, hu.trans hb, ?_⟩
  rw [← hff]
  refine ff_after_userClockEdge ((seen_fspAfter _).trans ((seen_dmaEdge _).trans (seen_qeEdge _)))
    (still_of_harts (hharts.trans (congrArg Seen.harts hb)) hs) ?_
  rw [gated, entryPast, hpwr, pwr_of_seen hb]
  exact hg

/-- Settles O8: nothing else that an F1 edge does reaches a signal before the flip-flops take it, or a flip-flop after. -/
theorem flipFlops : Obligations.FlipFlops := by
  unfold Obligations.FlipFlops
  intro s r tl c e i w k sr ce d hdue hr htl hc he hi hw hk hedge hbad hstill hsr hce hd
  obtain ⟨t, u, hx, hu, hff⟩ := exec_userClockEdge_ff hdue (not_gated_of_running hr) hstill
  refine ⟨t, hx, ?_⟩
  rw [← runningRegions_of_seen hu] at hr
  rw [← active_of_seen hu] at hw
  rw [← badBits_of_seen hu] at hbad
  simp only [← sig_of_seen hu] at hsr hce hd
  rw [← clk_of_seen hu] at hedge
  rw [hff, fabricStep_ff _ _ htl hc he hi hr (by rw [← hw, ← hk]; exact hedge), ffNext_of_signals hw hk hbad hsr hce hd,
    ff_of_seen hu]

end Sys2Proof.Proofs.FlipFlops
end

section
/-! PROOF. WFI at an F1 edge (R340): a state in which a bank number outside the device's 1,536 banks (R112) makes the
edge itself move the hart to another partition. -/

namespace Sys2Proof.Proofs.HartWakes

open Sys2Proof.Machine

/-- The number of no bank: BNK_WWC's bit for it would lie in HRT_OWN of hart 0, as bit 0 of PART. -/
def strayBank : Nat := 16 * ((0xF0000 - 0x34000) / 4)

/-- Hart 0 is in WFI with its timer interrupt pending and enabled, alone in a machine in M5 whose other harts are OFF.
At `strayBank`, port A has written a byte in the array cycle of the coming edge, and port B has a write of the same byte
waiting: the collision (R127) puts the hart into P1, which is not enabled (R22, R24, R341). -/
def strayCollision : State := {
  mode := .m5
  clk := { started := true }
  hart0 := { state := .wfi, mieReg := 0x80, mtimecmp := 0 }
  bank := {
    master := [(strayBank, dmaMaster)]
    waiting := [(strayBank, [⟨0, dmaMaster, 0, 0, .write [0]⟩])]
    cycle := [(strayBank, { f1 := 1, aWrote := [(bankKey strayBank 0, 0, 0, .good)] })] } }

theorem strayCollision_still : strayCollision.still fun g => g ≠ 0 := by
  unfold State.still
  decide +kernel

/-- What the edge leaves of hart 0: its partition is P1, its clock has stopped, and with the interrupt pending it is
still in WFI. -/
theorem strayCollision_edge : ∃ t, exec .userClockEdge strayCollision = .next t
    ∧ hartPart t 0 = 1 ∧ hartRuns t 0 = false
    ∧ (mip t 0 &&& (hartOf t 0).mieReg) ≠ 0 ∧ (hartOf t 0).state = .wfi :=
  ⟨_, rfl, by decide +kernel, by decide +kernel, by decide +kernel, by decide +kernel⟩

/-- Refutes O10: its clause for the F1 edge takes any state and asks nothing of the banks' tables. In `strayCollision`
the hart's clock runs before the edge and no longer when the edge comes to the hart, which therefore stays in WFI. -/
theorem not_waitForInterrupt : ¬ Obligations.WaitForInterrupt := by
  unfold Obligations.WaitForInterrupt
  intro holds
  obtain ⟨-, -, hedge, -⟩ := holds strayCollision 0 (by decide)
  obtain ⟨t, ht, -, wakes⟩ := hedge rfl (by decide +kernel) (by decide +kernel) strayCollision_still rfl rfl rfl
  obtain ⟨u, hu, -, -, hpending, hwfi⟩ := strayCollision_edge
  obtain rfl : u = t := Host.Outcome.next.inj (hu.symm.trans ht)
  exact absurd (hwfi.symm.trans (wakes hpending)) (by decide)

end Sys2Proof.Proofs.HartWakes
end

section
/-! PROOF. What the end of a life-cycle step's burn changes (R381). -/

namespace Sys2Proof.Proofs.LifeCycleSteps

open Sys2Proof.Machine Sys2Proof.Laws

/-! ### The end of a management request (R331) -/

theorem queueCpl_eq (s : State) (c : Cpl) : queueCpl s c = { s with host := (queueCpl s c).host } := by
  unfold queueCpl
  split <;> rfl

/-- The end of a request changes Chaty's places and the host interface, and nothing else. -/
theorem endReq_eq (s : State) (p : Nat) (m : MReq) (status : Nat) (rsp : List Byte) :
    ∃ g h, endReq s p m status rsp = { s with mgt := g, host := h } := by
  unfold endReq
  extract_lets
  split
  · exact ⟨_, _, queueCpl_eq ..⟩
  · exact ⟨_, _, rfl⟩

/-- The end of work changes the same, through the end of its request. -/
theorem endWork_eq (s : State) (p code status : Nat) (rsp : List Byte) :
    ∃ g h, endWork s p code status rsp = { s with mgt := g, host := h } := by
  unfold endWork
  split
  · split
    · exact endReq_eq ..
    · exact ⟨s.mgt, s.host, rfl⟩
  · exact ⟨s.mgt, s.host, rfl⟩

/-- Work that ends with an event changes the events beside what its request's end changes. -/
theorem endWork_raiseEv_eq (s : State) (n p code status : Nat) (rsp : List Byte) :
    ∃ e o g h, endWork (raiseEv s n) p code status rsp = { s with ev := e, outs := o, mgt := g, host := h } := by
  obtain ⟨e, o, hraise⟩ := raiseEv_eq s n
  obtain ⟨g, h, hend⟩ := endWork_eq (raiseEv s n) p code status rsp
  exact ⟨e, o, g, h, by rw [hend, hraise]⟩

/-! ### The end of a burn (R378, R381, R384) -/

/-- Life cycle, keys and authorisations once the burn of a step has ended. -/
def lcStepped (lc : LifeCycle) (word : Nat) (st : Step) : LifeCycle :=
  { lc with
    burn := none
    steps := tset 0 lc.steps word 0xFFFF
    state := (stepTo st lc.state).getD lc.state
    opened := false
    chal := none
    grants := if st = .seal_ then lc.grants % 2 else 0
    keys := if st = .return_ then [] else lc.keys
    wipe := lc.wipe || st == .return_ }

/-- A completed step changes the life cycle, raises its event and ends its request, and does nothing else. -/
theorem stepDone_eq {s : State} {code : Nat} {st : Step} (word : Nat) (hst : stepOf code = some st) :
    ∃ e o g h, stepDone s word code
      = { s with lc := lcStepped s.lc word st, ev := e, outs := o, mgt := g, host := h } := by
  simp only [stepDone, hst]
  exact endWork_raiseEv_eq { s with lc := lcStepped s.lc word st } ..

theorem burnDone_eq_stepDone {s : State} {word code : Nat} (hb : s.lc.burn = some (.step word code)) :
    exec .burnDone s = .next (stepDone s word code) := by
  show execBurnDone s = _
  simp only [execBurnDone, hb]

/-- Settles O9: the burn's end rewrites the life cycle by `lcStepped`, and the event and the response that come with it
reach neither the fabric, the loader nor the mode. -/
theorem completedSteps : Obligations.CompletedSteps := by
  unfold Obligations.CompletedSteps
  intro s word code st hb hst
  obtain ⟨e, o, g, h, hdone⟩ := stepDone_eq (s := s) word hst
  exact ⟨_, (burnDone_eq_stepDone hb).trans (congrArg _ hdone), rfl, rfl, fun hne => if_neg hne, fun heq => if_pos heq,
    rfl, rfl, rfl⟩

end Sys2Proof.Proofs.LifeCycleSteps
end
